-- ==== Sys2Proof/Word.lean ====
section
/-! DEFINITION. The words of the GBx link core (00_scope.md R10): bytes, `u32` values and the 64-bit
descriptor. Every value of the block is unsigned; no value is ever sign-extended (R10). -/

namespace Sys2Proof

/-- A byte: an 8-bit unsigned value (R10). -/
abbrev Byte := BitVec 8

/-- A `u32`: an unsigned 32-bit integer (R10). -/
abbrev U32 := BitVec 32

/-- The 64-bit operation descriptor `DESC` (R42, R101). -/
abbrev Desc := BitVec 64

end Sys2Proof
end

