-- ==== Sys2Proof/Config.lean ====
section
/-! DEFINITION. The implementation parameters of the block (00_scope.md R7) and their constraints
(R8). Every one of them is OPEN in the spec: the configuration is a field of the machine's state that
no step writes, so that a statement about every state is a statement about every configuration. -/

namespace Sys2Proof

/-- The parameters of R7. Tick-valued parameters are in units of the time input `now`. -/
structure Config where
  /-- `T_TIMEOUT`: the length of the sliding deadline, in ticks. -/
  tTimeout       : Nat
  /-- `P_POLL_RX`: the wait after a zero-byte read in the receive state machine, in ticks. -/
  pPollRx        : Nat
  /-- `P_POLL_BULK`: the wait after a zero-byte transfer in the bulk engine, in ticks. -/
  pPollBulk      : Nat
  /-- `D_THROTTLE`: the wait after each sent chunk, in ticks. -/
  dThrottle      : Nat
  /-- `CHUNK_RX`: the scratch chunk size of RECV_SINK, in bytes. -/
  chunkRx        : Nat
  /-- `CHUNK_TX`: the chunk size of SEND, in bytes. -/
  chunkTx        : Nat
  /-- `BUF_SIZE`: the size of the payload buffer, in bytes. -/
  bufSize        : Nat
  /-- `RESYNC_ON_BAD_STX`: whether a byte other than STX after DLE resumes the search. -/
  resyncOnBadStx : Bool
  /-- `TICK`: the real time of one tick. R7 gives it no unit and R8 no bound. A whole number of
  microseconds, 0 allowed: DESIGN CHOICE (log entry 19). No rule reads it. -/
  tickMicros     : Nat
  deriving DecidableEq, Repr

/-- The constraints of R8. A configuration outside them is refused (60_exceptions.md R279). -/
def Config.valid (c : Config) : Bool :=
  decide (1 ≤ c.tTimeout) && decide (1 ≤ c.pPollRx) && decide (1 ≤ c.pPollBulk)
    && decide (1 ≤ c.dThrottle) && decide (1 ≤ c.chunkRx) && decide (1 ≤ c.chunkTx)
    && decide (32 ≤ c.bufSize) && decide (c.bufSize ≤ 65535)

/-- The reference configuration CFG0 of 95_test_vectors.md (1 tick = 1 ms).
DESIGN CHOICE (log entry 1): every value is OPEN in R7; this one only serves `State.reset`. -/
def Config.reference : Config where
  tTimeout       := 3000
  pPollRx        := 10
  pPollBulk      := 20
  dThrottle      := 20
  chunkRx        := 512
  chunkTx        := 32
  bufSize        := 8192
  resyncOnBadStx := false
  tickMicros     := 1000

end Sys2Proof
end

