-- ==== Sys2Proof/Syntax.lean ====
section
/-! DEFINITION. The syntax of the GBx link core: one constructor for each row of
`spec/opcode_table.json`, the lines of a host program (30_encoding.md R108) and the host transactions
that expand to them (R109). -/

namespace Sys2Proof

/-- The instructions: the five host operations (R100), the request frames the block puts on the wire
(R96, R99) and the response header it decodes (R93, R135). -/
inductive Instr where
  /-- REQUEST (R131): discard the stale received bytes, then write the request frame of `cmd`. -/
  | request (cmd : Byte)
  /-- RECV_LEN (R150): find the marker `10 02` and decode the length that follows it. -/
  | recvLen
  /-- RECV_BUF (R180): receive exactly `length` payload bytes into `BUF`, at most `capacity`. -/
  | recvBuf (capacity : BitVec 16) (length : U32)
  /-- RECV_SINK (R188): receive exactly `length` payload bytes and append them to the sink. -/
  | recvSink (length : U32)
  /-- SEND (R220): transmit exactly `length` bytes read from the source. -/
  | send (length : U32)
  /-- The read-header request frame `10 02 00 00 00 01 01` (R96). -/
  | frameReadHeader
  /-- The read-rom request frame `10 02 00 00 00 01 02` (R96). -/
  | frameReadRom
  /-- The read-ram request frame `10 02 00 00 00 01 03` (R96). -/
  | frameReadRam
  /-- The write-ram request frame `10 02 00 00 00 01 04` (R96). -/
  | frameWriteRam
  /-- The get-ram-size request frame `10 02 00 00 00 01 F0` (R96). -/
  | frameGetRamSize
  /-- The request frame of a reserved command (R99): any byte but the five of R96. -/
  | frameReservedCmd (cmd : Byte)
  /-- The response header `10 02 len0 len1 len2 len3` announcing `length` payload bytes (R93, R135). -/
  | responseHeader (length : U32)
  deriving DecidableEq, Repr

/-- A length operand of a host program line (R108): a number, or the register `RESULT_LEN` as it
stands when the line starts. -/
inductive LengthArg where
  | lit (n : U32)
  | resultLen
  deriving DecidableEq, Repr

/-- The operation of one line of a host program (R108). -/
inductive LineOp where
  | request (cmd : Byte)
  | recvLen
  | recvBuf (length : LengthArg) (capacity : BitVec 16)
  | recvSink (length : LengthArg)
  | send (length : LengthArg)
  deriving DecidableEq, Repr

/-- One line of a host program (R108). A program stops at the first line whose `STATUS` is not `OK`
"unless the program says otherwise": `always` is how a line says otherwise, it runs whatever the
status of the line before it. -/
structure Line where
  op     : LineOp
  always : Bool
  deriving DecidableEq, Repr

/-- The host transactions, pseudo-operations of R109. -/
inductive Transaction where
  | readHeader
  | readRom
  | readRamSink
  | readRamBuf (capacity : BitVec 16)
  | writeRam (length : U32)
  | getRamSize
  deriving DecidableEq, Repr

end Sys2Proof
end

