-- ==== Sys2Proof/WellFormed.lean ====
section
/-! DEFINITION. Which instructions are well formed (30_encoding.md R96, R99, R103). -/

namespace Sys2Proof

/-- The command bytes of R96 that name a device operation; the other 251 are reserved (R99). -/
def definedCommands : List Byte := [0x01, 0x02, 0x03, 0x04, 0xF0]

/-- R99: a command value that is none of the five of R96. -/
def isReservedCommand (c : Byte) : Bool := !definedCommands.contains c

/-- Well-formedness that does not depend on the configuration: the reserved-command frame carries a
reserved command only (the other five commands have rows of their own). -/
def Instr.wellFormed : Instr → Bool
  | .request _ => true
  | .recvLen => true
  | .recvBuf _ _ => true
  | .recvSink _ => true
  | .send _ => true
  | .frameReadHeader => true
  | .frameReadRom => true
  | .frameReadRam => true
  | .frameWriteRam => true
  | .frameGetRamSize => true
  | .frameReservedCmd c => isReservedCommand c
  | .responseHeader _ => true

/-- R103: RECV_BUF is invalid when `CAPACITY > BUF_SIZE`; no other operation has a bound. -/
def Instr.fits (cfg : Config) : Instr → Bool
  | .recvBuf capacity _ => decide (capacity.toNat ≤ cfg.bufSize)
  | .request _ => true
  | .recvLen => true
  | .recvSink _ => true
  | .send _ => true
  | .frameReadHeader => true
  | .frameReadRom => true
  | .frameReadRam => true
  | .frameWriteRam => true
  | .frameGetRamSize => true
  | .frameReservedCmd _ => true
  | .responseHeader _ => true

/-- A well-formed instruction under a configuration. -/
def Instr.wf (cfg : Config) (i : Instr) : Bool := i.wellFormed && i.fits cfg

/-- The five host operations, the only instructions a descriptor can stand for (R100). -/
def Instr.isOperation : Instr → Bool
  | .request _ => true
  | .recvLen => true
  | .recvBuf _ _ => true
  | .recvSink _ => true
  | .send _ => true
  | .frameReadHeader => false
  | .frameReadRom => false
  | .frameReadRam => false
  | .frameWriteRam => false
  | .frameGetRamSize => false
  | .frameReservedCmd _ => false
  | .responseHeader _ => false

end Sys2Proof
end

