-- ==== Sys2Proof/Decode.lean ====
section
/-! DEFINITION. The encodings (30_encoding.md): the fields of the descriptor (R101), its validity
(R102, R103), the request frame and its decoder (R90 to R92, R133), the response header and its
length decoder (R93, R134, R135), and, after the decoder, the encoder of every instruction. -/

namespace Sys2Proof

/-! ## Byte order (R12, R66) -/

/-- R12: the big-endian decode of four bytes, the first byte the most significant. -/
def be32 (b0 b1 b2 b3 : Byte) : U32 :=
  BitVec.ofNat 32 (b0.toNat * 2 ^ 24 + b1.toNat * 2 ^ 16 + b2.toNat * 2 ^ 8 + b3.toNat)

/-- R12: the big-endian encode of a `u32`. -/
def be32enc (v : U32) : List Byte :=
  [v.extractLsb' 24 8, v.extractLsb' 16 8, v.extractLsb' 8 8, v.extractLsb' 0 8]

/-- R25, R157: the length accumulator after the bytes `bs`, each shifted in from the right. -/
def accumulate (acc : U32) (bs : List Byte) : U32 :=
  bs.foldl (fun a b => BitVec.ofNat 32 (a.toNat * 256 + b.toNat)) acc

/-- The `n` bytes of a number, the most significant first. -/
def bytesBE : Nat → Nat → List Byte
  | 0, _ => []
  | n + 1, w => BitVec.ofNat 8 (w / 256 ^ n) :: bytesBE n w

/-! ## The wire (R90 to R95, R133 to R135) -/

/-- The marker byte DLE (R9). -/
def dle : Byte := 0x10

/-- The marker byte STX (R9). -/
def stx : Byte := 0x02

/-- The six bytes every request frame begins with (R90): the marker and the big-endian length 1. -/
def frameHead : List Byte := [dle, stx, 0x00, 0x00, 0x00, 0x01]

/-- R92: the request frame of a command, always 7 bytes, for every byte `c`. -/
def frame (c : Byte) : List Byte := frameHead ++ [c]

/-- R133: the request frame decoder. -/
def unframe (s : List Byte) : Option Byte :=
  if s.length = 7 ∧ s.take 6 = frameHead then s[6]? else none

/-- R93, R134: the six bytes of the response header that announces `length` payload bytes. -/
def header (length : U32) : List Byte := dle :: stx :: be32enc length

/-- R134: a 6-byte sequence is a response header exactly when it begins with the marker. -/
def isHeader (h : List Byte) : Bool :=
  decide (h.length = 6) && decide (h.take 2 = [dle, stx])

/-- R135: the length decoder, `hdr_len`; `none` where the sequence has not six bytes. -/
def hdrLen (h : List Byte) : Option U32 :=
  match h with
  | [_, _, b0, b1, b2, b3] => some (be32 b0 b1 b2 b3)
  | _ => none

/-- R93, R110: a whole response frame, the 6-byte header and then the payload. -/
def responseFrame (payload : List Byte) : List Byte :=
  header (BitVec.ofNat 32 payload.length) ++ payload

/-! ## Fields of the descriptor (R101) -/

/-- `OP`, bits 2 to 0. -/
def descOp (d : Desc) : BitVec 3 := d.extractLsb' 0 3

/-- `CMD`, bits 15 to 8. -/
def descCmd (d : Desc) : Byte := d.extractLsb' 8 8

/-- `CAPACITY`, bits 31 to 16. -/
def descCapacity (d : Desc) : BitVec 16 := d.extractLsb' 16 16

/-- `LENGTH`, bits 63 to 32. -/
def descLength (d : Desc) : U32 := d.extractLsb' 32 32

/-! ## The decoder -/

/-- Why a word stands for no instruction. -/
inductive DecodeError where
  /-- R102: the reserved `OP` values 0, 6 and 7. -/
  | reservedOp (op : BitVec 3)
  /-- R103: a bit of a field the operation does not use is not 0. -/
  | mustBeZero (op : BitVec 3)
  /-- R90: seven bytes that do not begin as a request frame does. -/
  | notARequestFrame
  /-- R134: six bytes that do not begin with the marker. -/
  | notAResponseHeader
  /-- R110: no frame or header has this many bytes. -/
  | badLength (n : Nat)
  deriving DecidableEq, Repr

/-- What stands for an instruction: a descriptor in `DESC`, or the bytes of a frame or header in the
order of the wire. -/
inductive Encoded where
  | descriptor (d : Desc)
  | wire (bytes : List Byte)
  deriving DecidableEq, Repr

/-- `d` matches a row of R103's table. -/
def matchesRow (d mask value : Desc) : Bool := d &&& mask == value

/-- R102, R103: the operation of a descriptor, by the masks and match values of R103. The bound
`CAPACITY <= BUF_SIZE` depends on the configuration and is checked where RECV_BUF starts. -/
def decodeDesc (d : Desc) : Except DecodeError Instr :=
  match (descOp d).toNat with
  | 1 => if matchesRow d 0xFFFFFFFFFFFF00FF 0x0000000000000001
         then .ok (.request (descCmd d)) else .error (.mustBeZero (descOp d))
  | 2 => if matchesRow d 0xFFFFFFFFFFFFFFFF 0x0000000000000002
         then .ok .recvLen else .error (.mustBeZero (descOp d))
  | 3 => if matchesRow d 0x000000000000FFFF 0x0000000000000003
         then .ok (.recvBuf (descCapacity d) (descLength d)) else .error (.mustBeZero (descOp d))
  | 4 => if matchesRow d 0x00000000FFFFFFFF 0x0000000000000004
         then .ok (.recvSink (descLength d)) else .error (.mustBeZero (descOp d))
  | 5 => if matchesRow d 0x00000000FFFFFFFF 0x0000000000000005
         then .ok (.send (descLength d)) else .error (.mustBeZero (descOp d))
  | _ => .error (.reservedOp (descOp d))

/-- R96, R99: the request frame row of a command byte. -/
def frameInstr (c : Byte) : Instr :=
  if c = 0x01 then .frameReadHeader
  else if c = 0x02 then .frameReadRom
  else if c = 0x03 then .frameReadRam
  else if c = 0x04 then .frameWriteRam
  else if c = 0xF0 then .frameGetRamSize
  else .frameReservedCmd c

/-- The frame or header that a sequence of bytes is: seven bytes are a request frame (R90), six a
response header (R93), and no other length is either. -/
def decodeWire (bytes : List Byte) : Except DecodeError Instr :=
  if bytes.length = 7 then
    match unframe bytes with
    | some c => .ok (frameInstr c)
    | none => .error .notARequestFrame
  else if bytes.length = 6 then
    if isHeader bytes then
      match hdrLen bytes with
      | some n => .ok (.responseHeader n)
      | none => .error .notAResponseHeader
    else .error .notAResponseHeader
  else .error (.badLength bytes.length)

/-- The decoder, total on every descriptor and every sequence of bytes. -/
def decode : Encoded → Except DecodeError Instr
  | .descriptor d => decodeDesc d
  | .wire bytes => decodeWire bytes

/-- The instruction of a row of `spec/opcode_table.json` whose bits are `w`, numbered as the table
numbers them: a descriptor's bit 0 is its least significant bit, and a frame's or header's byte 0 is
its most significant byte (log entry 15). A row of 56 bits is a request frame and one of 48 bits a
response header; every other width up to 64 is a descriptor whose bits above `nbits` are 0. -/
def decodeTableWord (nbits w : Nat) : Option Instr :=
  if nbits = 56 then (decodeWire (bytesBE 7 w)).toOption
  else if nbits = 48 then (decodeWire (bytesBE 6 w)).toOption
  else if nbits ≤ 64 then (decodeDesc (BitVec.ofNat 64 w)).toOption
  else none

/-! ## The encoder -/

/-- R101: a descriptor from its fields, `RSV` being 0. -/
def descOf (op cmd capacity length : Nat) : Desc :=
  BitVec.ofNat 64 (length * 2 ^ 32 + capacity * 2 ^ 16 + cmd * 2 ^ 8 + op)

/-- The word or the bytes of an instruction (R90, R93, R101). -/
def encode : Instr → Encoded
  | .request cmd => .descriptor (descOf 1 cmd.toNat 0 0)
  | .recvLen => .descriptor (descOf 2 0 0 0)
  | .recvBuf capacity length => .descriptor (descOf 3 0 capacity.toNat length.toNat)
  | .recvSink length => .descriptor (descOf 4 0 0 length.toNat)
  | .send length => .descriptor (descOf 5 0 0 length.toNat)
  | .frameReadHeader => .wire (frame 0x01)
  | .frameReadRom => .wire (frame 0x02)
  | .frameReadRam => .wire (frame 0x03)
  | .frameWriteRam => .wire (frame 0x04)
  | .frameGetRamSize => .wire (frame 0xF0)
  | .frameReservedCmd cmd => .wire (frame cmd)
  | .responseHeader length => .wire (header length)

end Sys2Proof
end

