-- ==== Sys2Proof/Machine/State.lean ====
section
/-! DEFINITION. The state of the machine: the registers of 10_state.md R20, the inputs of the block
(R40 to R42), the streams of its collaborators (20_memory.md R60), the host's side, and the agenda
that says which of the four agents of 00_scope.md R5 moves next. All of it is plain data. -/

namespace Sys2Proof.Machine

/-- `STATE`, the controller phase (R23, R107). Value 7 never occurs and is excluded by type. -/
inductive Phase where
  | idle | reqSend | rxRun | bufRun | sinkRun | sendFetch | sendWrite
  deriving DecidableEq, Repr

/-- `RXSM`, the receive state machine state (R24, R106). Values 6 and 7 never occur. -/
inductive RxState where
  | seekDle | seekStx | readLength | done | timeout | cancelled
  deriving DecidableEq, Repr

/-- `WAIT_KIND` (R29): after a zero-byte transfer, or after a SEND chunk. -/
inductive WaitKind where
  | poll | throttle
  deriving DecidableEq, Repr

/-- `STATUS` (R104). The reserved codes 11 to 15 are never written and are excluded by type. -/
inductive Status where
  | none | ok | noFrameMarker | incompleteLength | cancelled | capacity | shortTransfer | sinkWrite
  | shortSource | transportWrite | illegalOp
  deriving DecidableEq, Repr

/-- `CAUSE` (R105). The reserved codes 5 to 7 are never written and are excluded by type. -/
inductive Cause where
  | none | deadline | cancel | badStx | shortAccept
  deriving DecidableEq, Repr

/-- A byte memory: the bytes written since reset, as (index, byte) pairs with rising indices. An
index that is listed carries the written-mark of R49; one that is not holds no value, so equal
memories are equal lists and no entry can be equal to what an unlisted index reads as. -/
structure Memory where
  cells : List Host.Cell
  deriving DecidableEq, Repr

/-- The memory right after reset: no byte has a written-mark (R49, R290). -/
def Memory.empty : Memory := ⟨[]⟩

/-- Strictly rising indices. -/
def Memory.risingFrom : Nat → List Host.Cell → Bool
  | _, [] => true
  | lo, (a, _) :: rest => decide (lo ≤ a) && Memory.risingFrom (a + 1) rest

/-- The canonical form of a memory: each index at most once, in rising order. -/
def Memory.wf (m : Memory) : Bool := Memory.risingFrom 0 m.cells

/-- The byte memories an index can be read from (R60). -/
inductive Space where
  | buf | txc
  deriving DecidableEq, Repr

/-- The host-visible registers of R20, `BUF` apart. -/
inductive Reg where
  | busy | op | state | rxsm | lenAcc | lenCount | resultLen | deadline | waiting | wake | waitKind
  | total | remaining | offset | capacityR | cmdR | txcLen | txcPos | progressCount | status | cause
  deriving DecidableEq, Repr

/-- The events the block emits to the host (R267). -/
inductive Event where
  /-- DONE, once for every `finish` (R262). -/
  | done
  /-- PROGRESS(total, remaining) (R187, R229). -/
  | progress (total remaining : U32)
  deriving DecidableEq, Repr

/-- What a read by the host returned (R46). -/
inductive HostRead where
  | register (r : Reg) (value : Nat)
  | buffer (index : Nat) (bytes : List Byte)
  deriving DecidableEq, Repr

/-- The collaborators' answers to the primitive calls of one block step (R70, R71, R73, R74): how many
bytes each is ready to move. The primitive takes no more than it was asked for, so every answer the
laws allow is one of these and every one of these is allowed. DEDUCED (log entry 4). -/
structure Answers where
  read   : Nat
  write  : Nat
  sink   : Nat
  source : Nat
  deriving DecidableEq, Repr

/-- One move of one agent (R5). -/
inductive Move where
  /-- Block: one step of the running operation (R6), with its collaborators' answers. -/
  | block (answers : Answers)
  /-- Time: `now` advances by `ticks` (R40). -/
  | tick (ticks : Nat)
  /-- Transport: bytes arrive in its receive buffer (R5, R47). -/
  | arrive (bytes : List Byte)
  /-- Host: drive the cancellation flag (R41). -/
  | setCancel (level : Bool)
  /-- Host: drive the descriptor input without a start request (R42, R80). -/
  | present (desc : Desc)
  /-- Host: request a start of the descriptor at `DESC` (R130). -/
  | start
  /-- Host: read a register (R46). -/
  | readReg (r : Reg)
  /-- Host: read `count` bytes of `BUF` from `index` (R11, R46, R61). -/
  | readBuf (index count : Nat)
  /-- Host: supply a source, positioned at its first byte (R5, R65). At any time: while SEND runs too,
  it replaces the stream and the next fetch starts at its first byte. DESIGN CHOICE (log entry 20). -/
  | supplySource (bytes : List Byte)
  /-- Host: supply a sink with nothing in it (R5, R64). At any time: while RECV_SINK runs too, the
  following appends go to the new sink. DESIGN CHOICE (log entry 20). -/
  | supplySink
  /-- Host: take up a program (R108), in place of what is left of an earlier one.
  DESIGN CHOICE (log entry 14). -/
  | loadProgram (lines : List Line)
  /-- Host: go on with its program: start the next line, wait, or stop (R108). -/
  | nextLine
  /-- The reset input is asserted (R290). -/
  | reset
  deriving DecidableEq, Repr

/-- Why the machine stops with a fault (R279). Both are model outcomes, never a `STATUS`. -/
inductive Fault where
  /-- `HOST_PROTOCOL` (R265, R279): the host started `desc` while `BUSY = 1`. Raised by the start
  request and by an operation asked to run while another one does. Safe: the machine stops. -/
  | hostProtocol (desc : Desc)
  /-- `UNWRITTEN_READ` (R49, R279): the byte at `index` has no written-mark. Raised by the host's read
  of `BUF`, and by SEND where its scratch chunk lacks a byte, which no run reaches. Safe. -/
  | unwrittenRead (space : Space) (index : Nat)
  /-- The host's read goes past the end of `BUF` (R60: indices 0 to `BUF_SIZE - 1`). Raised by the
  host's read of `BUF`. Safe: there is no such byte. DESIGN CHOICE (log entry 10). -/
  | outsideBuf (index : Nat)
  deriving DecidableEq, Repr

/-- Why the machine refuses to take a step. -/
inductive Refusal where
  /-- The instruction has no meaning yet. No arm answers with it. Safe. -/
  | notModelled (mnemonic : String)
  /-- R279: a configuration outside R8. Raised by `step` before anything else. Safe. -/
  | badConfiguration
  deriving DecidableEq, Repr

/-- The state of the machine. -/
structure State where
  /-- The parameters of R7; no step writes them. -/
  cfg           : Config
  /-- `BUSY` (R21). -/
  busy          : Bool
  /-- `OP` (R22). -/
  op            : BitVec 3
  /-- `STATE` (R23). -/
  phase         : Phase
  /-- `RXSM` (R24). -/
  rxsm          : RxState
  /-- `LEN_ACC` (R25). -/
  lenAcc        : U32
  /-- `LEN_COUNT` (R26). -/
  lenCount      : BitVec 3
  /-- `RESULT_LEN` (R27). -/
  resultLen     : U32
  /-- `DEADLINE` (R28). -/
  deadline      : Nat
  /-- `WAITING` (R29). -/
  waiting       : Bool
  /-- `WAKE` (R29). -/
  wake          : Nat
  /-- `WAIT_KIND` (R29). -/
  waitKind      : WaitKind
  /-- `TOTAL` (R30). -/
  total         : U32
  /-- `REMAINING` (R31). -/
  remaining     : U32
  /-- `OFFSET` (R32). -/
  offset        : U32
  /-- `CAPACITY_R` (R34). -/
  capacityR     : BitVec 16
  /-- `CMD_R` (R35). -/
  cmdR          : Byte
  /-- `TXC`, SEND's scratch chunk (R36). -/
  txc           : Memory
  /-- `TXC_LEN` (R36). -/
  txcLen        : U32
  /-- `TXC_POS` (R36). -/
  txcPos        : U32
  /-- `RXC`, RECV_SINK's scratch chunk (R37). -/
  rxc           : Memory
  /-- `PROGRESS_COUNT` (R38). -/
  progressCount : U32
  /-- `STATUS` (R39). -/
  status        : Status
  /-- `CAUSE` (R39). -/
  cause         : Cause
  /-- `BUF`, the payload buffer, with its written-marks (R49, R61). -/
  buf           : Memory
  /-- The time input `now` (R40). -/
  now           : Nat
  /-- The cancellation flag `CANCEL` (R41). -/
  cancel        : Bool
  /-- The descriptor input `DESC` (R42). -/
  desc          : Desc
  /-- The transport's receive buffer: bytes arrived and not yet read (R47). -/
  rx            : List Byte
  /-- The transport's transmit stream: every byte transmitted, in order (R71). -/
  tx            : List Byte
  /-- What the sink holds (R64). -/
  sink          : List Byte
  /-- The bytes of the source, from its first (R65). -/
  source        : List Byte
  /-- How many bytes of the source have been read (R65, R291). -/
  sourcePos     : Nat
  /-- The events emitted to the host, in order (R267). -/
  events        : List Event
  /-- What the host's reads returned, in order (R46). -/
  hostReads     : List HostRead
  /-- The lines of the host's program still to run (R108). -/
  program       : List Line
  /-- MODEL: the agents' moves still to come, in the order they are taken (R5). DESIGN CHOICE
  (log entry 3). -/
  agenda        : List Move
  /-- MODEL: the collaborators' answers to the present block step (R70 to R74). -/
  answers       : Answers
  deriving DecidableEq, Repr

/-- The machine right after reset. The registers are those of R20 and R290. The environment is the one
of ENV0 (95_test_vectors.md) with empty streams, and nothing is on the agenda.
DESIGN CHOICE (log entries 1 and 2): the spec fixes neither the configuration nor the environment. -/
def State.reset : State where
  cfg := Config.reference
  busy := false
  op := 0
  phase := .idle
  rxsm := .seekDle
  lenAcc := 0
  lenCount := 0
  resultLen := 0
  deadline := 0
  waiting := false
  wake := 0
  waitKind := .poll
  total := 0
  remaining := 0
  offset := 0
  capacityR := 0
  cmdR := 0
  txc := Memory.empty
  txcLen := 0
  txcPos := 0
  rxc := Memory.empty
  progressCount := 0
  status := .none
  cause := .none
  buf := Memory.empty
  now := 0
  cancel := false
  desc := 0
  rx := []
  tx := []
  sink := []
  source := []
  sourcePos := 0
  events := []
  hostReads := []
  program := []
  agenda := []
  answers := ⟨0, 0, 0, 0⟩

end Sys2Proof.Machine
end

