-- ==== Sys2Proof/Machine/Flags.lean ====
section
/-! DEFINITION. The numbers of the encoded registers (30_encoding.md R104 to R107), the results an
operation can end with (60_exceptions.md R250) and the error classes a host reads from them (R260). -/

namespace Sys2Proof.Machine

/-- The number of a phase in `STATE` (R107). -/
def phaseCode : Phase → BitVec 3
  | .idle => 0
  | .reqSend => 1
  | .rxRun => 2
  | .bufRun => 3
  | .sinkRun => 4
  | .sendFetch => 5
  | .sendWrite => 6

/-- The number of a receive state in `RXSM` (R106). -/
def rxCode : RxState → BitVec 3
  | .seekDle => 0
  | .seekStx => 1
  | .readLength => 2
  | .done => 3
  | .timeout => 4
  | .cancelled => 5

/-- The bit of `WAIT_KIND` (R20). -/
def waitKindCode : WaitKind → BitVec 1
  | .poll => 0
  | .throttle => 1

/-- The number of a result code in `STATUS` (R104). -/
def statusCode : Status → BitVec 4
  | .none => 0
  | .ok => 1
  | .noFrameMarker => 2
  | .incompleteLength => 3
  | .cancelled => 4
  | .capacity => 5
  | .shortTransfer => 6
  | .sinkWrite => 7
  | .shortSource => 8
  | .transportWrite => 9
  | .illegalOp => 10

/-- The number of a cause in `CAUSE` (R105). -/
def causeCode : Cause → BitVec 3
  | .none => 0
  | .deadline => 1
  | .cancel => 2
  | .badStx => 3
  | .shortAccept => 4

/-- The pairs of `STATUS` and `CAUSE` an operation can end with (R250). -/
def isResult : Status → Cause → Bool
  | .ok, .none => true
  | .noFrameMarker, .deadline => true
  | .noFrameMarker, .badStx => true
  | .incompleteLength, .deadline => true
  | .cancelled, .cancel => true
  | .capacity, .none => true
  | .shortTransfer, .deadline => true
  | .shortTransfer, .cancel => true
  | .sinkWrite, .shortAccept => true
  | .shortSource, .none => true
  | .transportWrite, .shortAccept => true
  | .illegalOp, .none => true
  | _, _ => false

/-- The error classes of the source document's section 7 (R260). `VerificationMismatch` is no result
of the block. -/
inductive ErrorClass where
  | framing | timeout | cancelled | capacity | shortTransfer
  deriving DecidableEq, Repr

/-- R260: the classes a pair of `STATUS` and `CAUSE` belongs to. They overlap: a stalled transfer is
a short transfer and a timeout, and an incomplete length that ran out of time is a framing error and a
timeout. The pair `NO_FRAME_MARKER`/`DEADLINE` "is in two classes at once". -/
def errorClasses (status : Status) (cause : Cause) : List ErrorClass :=
  (match status with
    | .noFrameMarker => [.framing]
    | .incompleteLength => [.framing]
    | .capacity => [.capacity]
    | .shortTransfer => [.shortTransfer]
    | .none => []
    | .ok => []
    | .cancelled => []
    | .sinkWrite => []
    | .shortSource => []
    | .transportWrite => []
    | .illegalOp => []) ++
  (match cause with
    | .deadline => [.timeout]
    | .cancel => [.cancelled]
    | .none => []
    | .badStx => []
    | .shortAccept => [])

end Sys2Proof.Machine
end

