-- ==== Sys2Proof/Machine/Memory.lean ====
section
/-! DEFINITION. Reading and writing the byte memories `BUF`, `TXC` and `RXC` (00_scope.md R11,
20_memory.md R60 to R63). A byte that nothing has written since reset has no value (R49). -/

namespace Sys2Proof.Machine

/-- The value listed at index `a`, if it is listed. -/
def cellAt (a : Nat) : List Host.Cell → Option Byte
  | [] => none
  | (k, v) :: rest => if a = k then some v else cellAt a rest

/-- The list with `v` at index `a`, in rising order. -/
def setCell (a : Nat) (v : Byte) : List Host.Cell → List Host.Cell
  | [] => [(a, v)]
  | (k, w) :: rest =>
    if a < k then (a, v) :: (k, w) :: rest
    else if a = k then (a, v) :: rest
    else (k, w) :: setCell a v rest

/-- Read one byte; `none` where the byte has no written-mark (R49). -/
def Memory.read (m : Memory) (a : Nat) : Option Byte := cellAt a m.cells

/-- Write one byte and give it a written-mark. -/
def Memory.write (m : Memory) (a : Nat) (v : Byte) : Memory := ⟨setCell a v m.cells⟩

/-- `MemWrite(a, |bs|, bs)` (R11): byte `i` of `bs` goes to index `a + i`. -/
def Memory.writeBytes (m : Memory) (a : Nat) : List Byte → Memory
  | [] => m
  | b :: bs => Memory.writeBytes (m.write a b) (a + 1) bs

/-- The memory that holds the bytes `bs` from index 0 and no other byte. -/
def Memory.ofBytes (bs : List Byte) : Memory := Memory.empty.writeBytes 0 bs

/-- `MemRead(a, n)` (R11): the `n` bytes from index `a`, or the first index among them that has no
written-mark. -/
def Memory.readBytes (m : Memory) (a : Nat) : Nat → Except Nat (List Byte)
  | 0 => .ok []
  | n + 1 =>
    match m.read a with
    | none => .error a
    | some b =>
      match Memory.readBytes m (a + 1) n with
      | .ok bs => .ok (b :: bs)
      | .error i => .error i

/-- Every written index lies below `size` (R60, R61). -/
def Memory.within (m : Memory) (size : Nat) : Bool := m.cells.all (fun c => decide (c.1 < size))

end Sys2Proof.Machine
end

