-- ==== Sys2Proof/Machine/Operands.lean ====
section
/-! DEFINITION. How many bytes each operation asks its collaborators for (20_memory.md R69), and the
bytes of a response header as the receive state machine has them (41_receive_sm.md R157). -/

namespace Sys2Proof.Machine

/-- RECV_LEN's read (R152): the missing length bytes in `READ_LENGTH`, one byte elsewhere. -/
def rxAsk (s : State) : Nat :=
  if s.rxsm = .readLength then 4 - s.lenCount.toNat else 1

/-- RECV_BUF's read (R182): `REMAINING` bytes. -/
def bufAsk (s : State) : Nat := s.remaining.toNat

/-- RECV_SINK's read (R189): `min(REMAINING, CHUNK_RX)` bytes. -/
def sinkAsk (s : State) : Nat := min s.remaining.toNat s.cfg.chunkRx

/-- SEND's source read (R222): `min(CHUNK_TX, REMAINING)` bytes. -/
def fetchAsk (s : State) : Nat := min s.cfg.chunkTx s.remaining.toNat

/-- SEND's write (R224): the part of the chunk the transport has not accepted. -/
def writeAsk (s : State) : Nat := s.txcLen.toNat - s.txcPos.toNat

/-- A counter moved up by `n` bytes, in its 32 bits. -/
def countUp (c : U32) (n : Nat) : U32 := BitVec.ofNat 32 (c.toNat + n)

/-- A counter moved down by `n` bytes, never below 0 (R31). -/
def countDown (c : U32) (n : Nat) : U32 := BitVec.ofNat 32 (c.toNat - n)

/-- The length bytes already accumulated (R25, R26): the last `LEN_COUNT` bytes of `LEN_ACC`. -/
def lengthBytes (s : State) : List Byte := (be32enc s.lenAcc).drop (4 - s.lenCount.toNat)

end Sys2Proof.Machine
end

