-- ==== Sys2Proof/Machine/Ops.lean ====
section
/-! DEFINITION. The operations every instruction is made of: `finish`, the block's whole trap entry
(60_exceptions.md R262), the waits (00_scope.md R11), the start step (40_framer.md R130), the sliding
deadline (60_exceptions.md R270), the primitives (20_memory.md R70 to R74), progress (R187) and reset
(R290). -/

namespace Sys2Proof.Machine

/-- The three outcomes of a step of this machine. -/
abbrev Result := Host.Outcome State Fault Refusal

/-! ## Entering and leaving an operation -/

/-- `finish(code, cause)` (R11, R262): record the result, go idle, emit DONE. Everything else keeps the
value it has, which is what makes a result precise. There is no return from it (R264). -/
def finish (code : Status) (cause : Cause) (s : State) : State :=
  { s with
    status := code, cause := cause, phase := .idle, busy := false,
    events := s.events ++ [.done] }

/-- R130: the writes every start step makes before the operation's own `start:` block. -/
def beginOp (opcode : BitVec 3) (s : State) : State :=
  { s with busy := true, status := .none, cause := .none, op := opcode }

/-- R130, R258: a start whose descriptor is invalid runs nothing and ends in the same step. -/
def illegalOp (opcode : BitVec 3) (s : State) : State :=
  finish .illegalOp .none (beginOp opcode s)

/-- `wait(n, kind)` (R11): the block rests until `now` reaches `WAKE`. -/
def startWait (n : Nat) (kind : WaitKind) (s : State) : State :=
  { s with wake := s.now + n, waitKind := kind, waiting := true }

/-- R11, R29: the end of a wait, enabled only once `now >= WAKE`; before that the block takes no
step. -/
def endWait (s : State) : State :=
  if s.wake ≤ s.now then { s with waiting := false } else s

/-- R6, R13: one block step of an operation. An idle block runs the `start:` block; a block in one of
the operation's own phases ends its wait or runs an `iterate:` block; and a block that runs another
operation faults (R265). DESIGN CHOICE (log entry 8)
for `exec` itself. -/
def operationStep (startBlock iterate : State → Result) (own : Phase → Bool) (s : State) : Result :=
  if s.busy then
    if own s.phase then
      if s.waiting then .next (endWait s) else iterate s
    else .fault (.hostProtocol s.desc)
  else startBlock s

/-! ## The sliding deadline (R270) -/

/-- R270: set at start and reset by every transfer that moved a byte. -/
def setDeadline (s : State) : State := { s with deadline := s.now + s.cfg.tTimeout }

/-- R270: a transfer of zero bytes evaluates the deadline and does not change it. Expired, the
operation ends as `expired` says; not yet expired, the block waits a poll interval. -/
def zeroTransfer (poll : Nat) (expired : State → State) (s : State) : State :=
  if s.deadline ≤ s.now then expired s else startWait poll .poll s

/-! ## The primitives (R70 to R74) -/

/-- `TransportRead(k)` (R70, R75): the bytes come from the receive buffer, oldest first, and are
consumed; how many is the transport's answer, at most `k`. -/
def transportRead (k : Nat) (s : State) : List Byte × State :=
  (s.rx.take (min k s.answers.read), { s with rx := s.rx.drop (min k s.answers.read) })

/-- `TransportWrite(bs)` (R71): the transport accepts the first `m` bytes and transmits them in
order; `m` is its answer, at most `|bs|`. -/
def transportWrite (bs : List Byte) (s : State) : Nat × State :=
  (min bs.length s.answers.write, { s with tx := s.tx ++ bs.take (min bs.length s.answers.write) })

/-- `TransportDiscard()` (R72): every byte that has arrived and is unread is removed. -/
def transportDiscard (s : State) : State := { s with rx := [] }

/-- `SinkAppend(bs)` (R64, R73): the sink accepts the first `m` bytes and appends them in order; `m`
is its answer, at most `|bs|`. -/
def sinkAppend (bs : List Byte) (s : State) : Nat × State :=
  (min bs.length s.answers.sink, { s with sink := s.sink ++ bs.take (min bs.length s.answers.sink) })

/-- `SourceRead(k)` (R65, R74): the next unread bytes of the source, which advances by their number;
how many is the source's answer, at most `k`. -/
def sourceRead (k : Nat) (s : State) : List Byte × State :=
  ((s.source.drop s.sourcePos).take (min k s.answers.source),
    { s with
      sourcePos := s.sourcePos
        + ((s.source.drop s.sourcePos).take (min k s.answers.source)).length })

/-! ## Progress and reset -/

/-- R187, R229: emit PROGRESS(TOTAL, REMAINING) and count it, modulo 2^32 (R38). -/
def emitProgress (s : State) : State :=
  { s with
    events := s.events ++ [.progress s.total s.remaining],
    progressCount := s.progressCount + 1 }

/-- R290: the reset step. Every register takes its reset value and every written-mark is cleared. The
inputs, the transport, the sink, the source and the host's side are left as they are, and no event is
emitted. A reset may fall in the middle of an operation, which it abandons (R291). -/
def resetBlock (s : State) : State :=
  { s with
    busy := false, op := 0, phase := .idle, rxsm := .seekDle,
    lenAcc := 0, lenCount := 0, resultLen := 0,
    deadline := 0, waiting := false, wake := 0, waitKind := .poll,
    total := 0, remaining := 0, offset := 0, capacityR := 0, cmdR := 0,
    txc := Memory.empty, txcLen := 0, txcPos := 0, rxc := Memory.empty,
    progressCount := 0, status := .none, cause := .none, buf := Memory.empty }

end Sys2Proof.Machine
end

