-- ==== Sys2Proof/Machine/BulkReceive.lean ====
section
/-! DEFINITION. The receive side of the bulk transfer engine (42_bulk_receive.md): RECV_BUF (R180 to
R184) and RECV_SINK (R188 to R190). -/

namespace Sys2Proof.Machine

/-- R181, R188, R221: the counters and the deadline at the start of a bulk operation. -/
def bulkStart (opcode : BitVec 3) (length : U32) (s : State) : State :=
  { setDeadline (beginOp opcode s) with total := length, remaining := length, offset := 0 }

/-- R250: the deadline result of the bulk operations. -/
def bulkExpired (s : State) : State := finish .shortTransfer .deadline s

/-- R250: the cancellation result of the bulk operations. -/
def bulkCancelled (s : State) : State := finish .shortTransfer .cancel s

/-- R181, the `start:` block of RECV_BUF, after the bound of R103. The capacity is checked before any
byte is read (R62), and before the zero length (R261). -/
def recvBufStart (capacity : BitVec 16) (length : U32) (s : State) : State :=
  if s.cfg.bufSize < capacity.toNat then illegalOp 3 s
  else
    let t := { bulkStart 3 length s with capacityR := capacity }
    if capacity.toNat < length.toNat then finish .capacity .none t
    else if length = 0 then finish .ok .none t
    else { t with phase := .bufRun }

/-- R182: the bytes `bs` that fit the capacity are committed to `BUF`. -/
def bufCommit (bs : List Byte) (s : State) : State :=
  let t := emitProgress (setDeadline { s with
    buf := s.buf.writeBytes s.offset.toNat bs,
    offset := countUp s.offset bs.length,
    remaining := countDown s.remaining bs.length })
  if t.remaining = 0 then finish .ok .none t else t

/-- R182, R183, the `iterate:` block of RECV_BUF. -/
def recvBufIterate (s : State) : State :=
  if s.cancel then bulkCancelled s
  else
    let r := transportRead (bufAsk s) s
    match r.1 with
    | [] => zeroTransfer s.cfg.pPollBulk bulkExpired r.2
    | b :: bs =>
      if s.capacityR.toNat < s.offset.toNat + (b :: bs).length then finish .capacity .none r.2
      else bufCommit (b :: bs) r.2

/-- RECV_BUF (R180). -/
def execRecvBuf (capacity : BitVec 16) (length : U32) (s : State) : Result :=
  operationStep (fun s => .next (recvBufStart capacity length s))
    (fun s => .next (recvBufIterate s)) (fun p => p == .bufRun) s

/-- R188, the `start:` block of RECV_SINK. -/
def recvSinkStart (length : U32) (s : State) : State :=
  let t := bulkStart 4 length s
  if length = 0 then finish .ok .none t else { t with phase := .sinkRun }

/-- R189, R190: the bytes `bs` go through `RXC` to the sink in the same step. `REMAINING` counts the
bytes read and `OFFSET` those the sink accepted; a short append ends the operation and the rest of
`bs` is lost. A byte of `RXC` beyond `bs` is unspecified (R37) and holds no value:
DESIGN CHOICE (log entry 22). -/
def sinkCommit (bs : List Byte) (s : State) : State :=
  let t := setDeadline { s with
    rxc := Memory.ofBytes bs,
    remaining := countDown s.remaining bs.length }
  let w := sinkAppend bs t
  let u := { w.2 with offset := countUp w.2.offset w.1 }
  if w.1 < bs.length then finish .sinkWrite .shortAccept u
  else
    let v := emitProgress u
    if v.remaining = 0 then finish .ok .none v else v

/-- R189, the `iterate:` block of RECV_SINK. -/
def recvSinkIterate (s : State) : State :=
  if s.cancel then bulkCancelled s
  else
    let r := transportRead (sinkAsk s) s
    match r.1 with
    | [] => zeroTransfer s.cfg.pPollBulk bulkExpired r.2
    | b :: bs => sinkCommit (b :: bs) r.2

/-- RECV_SINK (R188). -/
def execRecvSink (length : U32) (s : State) : Result :=
  operationStep (fun s => .next (recvSinkStart length s)) (fun s => .next (recvSinkIterate s))
    (fun p => p == .sinkRun) s

end Sys2Proof.Machine
end

