-- ==== Sys2Proof/Machine/BulkSend.lean ====
section
/-! DEFINITION. The send side of the bulk transfer engine (43_bulk_send.md): SEND (R220 to R229). -/

namespace Sys2Proof.Machine

/-- R221, the `start:` block of SEND. The source stays where the host put it:
DEDUCED (log entry 6). -/
def sendStart (length : U32) (s : State) : State :=
  let t := { bulkStart 5 length s with txcLen := 0, txcPos := 0 }
  if length = 0 then finish .ok .none t else { t with phase := .sendFetch }

/-- R222, R223, R228, the `iterate:` block of SEND in `SEND_FETCH`: completion before cancellation,
then one chunk from the source. A fetch is no forward progress and leaves the deadline as it is. A
byte of `TXC` beyond the chunk has no meaningful value (R36) and holds none:
DESIGN CHOICE (log entry 22). -/
def sendFetchIterate (s : State) : State :=
  if s.remaining = 0 then finish .ok .none s
  else if s.cancel then bulkCancelled s
  else
    let d := sourceRead (fetchAsk s) s
    if d.1.length < fetchAsk s then finish .shortSource .none d.2
    else
      { d.2 with
        txc := Memory.ofBytes d.1,
        txcLen := BitVec.ofNat 32 (fetchAsk s), txcPos := 0, phase := .sendWrite }

/-- R224, R227: the transport accepted `m` bytes of the chunk; the last of them ends the chunk, which
is reported and followed by the throttle wait. -/
def sendAccepted (m : Nat) (s : State) : State :=
  let t := setDeadline { s with
    txcPos := countUp s.txcPos m,
    offset := countUp s.offset m,
    remaining := countDown s.remaining m }
  if t.txcPos = t.txcLen then
    startWait t.cfg.dThrottle .throttle { emitProgress t with phase := .sendFetch }
  else t

/-- R224 to R226, the `iterate:` block of SEND in `SEND_WRITE`. -/
def sendWriteIterate (s : State) : Result :=
  if s.cancel then .next (bulkCancelled s)
  else
    match s.txc.readBytes s.txcPos.toNat (writeAsk s) with
    | .error i => .fault (.unwrittenRead .txc i)
    | .ok chunk =>
      let w := transportWrite chunk s
      if 0 < w.1 then .next (sendAccepted w.1 w.2)
      else .next (zeroTransfer s.cfg.pPollBulk bulkExpired w.2)

/-- SEND (R220). -/
def execSend (length : U32) (s : State) : Result :=
  operationStep (fun s => .next (sendStart length s))
    (fun s => if s.phase = .sendFetch then .next (sendFetchIterate s) else sendWriteIterate s)
    (fun p => p == .sendFetch || p == .sendWrite) s

end Sys2Proof.Machine
end

