-- ==== Sys2Proof/Machine/Framer.lean ====
section
/-! DEFINITION. The packet framer (40_framer.md): the operation REQUEST (R131) and the request frames
it puts on the wire (30_encoding.md R90 to R99). -/

namespace Sys2Proof.Machine

/-- R131, the `start:` block of REQUEST. -/
def requestStart (cmd : Byte) (s : State) : State :=
  { beginOp 1 s with cmdR := cmd, phase := .reqSend }

/-- R131, the `iterate:` block of REQUEST: discard, then write the frame once. `CANCEL` is not sampled
and there is no deadline, no retry and no wait. -/
def sendFrame (cmd : Byte) (s : State) : State :=
  let w := transportWrite (frame cmd) (transportDiscard s)
  if w.1 < 7 then finish .transportWrite .shortAccept w.2 else finish .ok .none w.2

/-- REQUEST (R131): its start, and then the one iteration that sends the frame of `CMD_R`. -/
def execRequest (cmd : Byte) (s : State) : Result :=
  operationStep (fun s => .next (requestStart cmd s)) (fun s => .next (sendFrame s.cmdR s))
    (fun p => p == .reqSend) s

/-- A request frame on the wire (R90, R131): the block sends it in the iteration of REQUEST, and only
when it is the frame of the latched command. At any other time no frame is sent and the block takes no
step for it (R21, R265). DESIGN CHOICE (log entry 9). -/
def frameStep (cmd : Byte) (s : State) : Result :=
  if s.busy && s.phase == .reqSend && s.cmdR == cmd then
    if s.waiting then .next (endWait s) else .next (sendFrame cmd s)
  else .next s

/-- The read-header frame (R96): the device answers with its metadata block. -/
def execFrameReadHeader (s : State) : Result := frameStep 0x01 s

/-- The read-rom frame (R96): the device answers with the full ROM image. -/
def execFrameReadRom (s : State) : Result := frameStep 0x02 s

/-- The read-ram frame (R96): the device answers with the full RAM image. -/
def execFrameReadRam (s : State) : Result := frameStep 0x03 s

/-- The write-ram frame (R96, R97): no response frame comes before the host's SEND. -/
def execFrameWriteRam (s : State) : Result := frameStep 0x04 s

/-- The get-ram-size frame (R96, R98): the device answers with four bytes. -/
def execFrameGetRamSize (s : State) : Result := frameStep 0xF0 s

/-- The frame of a reserved command (R99): sent like any other; the reply is a transport draw. -/
def execFrameReservedCmd (cmd : Byte) (s : State) : Result := frameStep cmd s

end Sys2Proof.Machine
end

