-- ==== Sys2Proof/Machine/ReceiveSm.lean ====
section
/-! DEFINITION. The receive state machine (41_receive_sm.md): the operation RECV_LEN (R150 to R162) and
the response header it decodes (30_encoding.md R93, 40_framer.md R134, R135). -/

namespace Sys2Proof.Machine

/-- R151, the `start:` block of RECV_LEN. `RESULT_LEN` is not written. -/
def recvLenStart (s : State) : State :=
  { setDeadline (beginOp 2 s) with
    rxsm := .seekDle, lenAcc := 0, lenCount := 0, phase := .rxRun }

/-- R153: in `SEEK_DLE` every byte but DLE is discarded. -/
def seekDle (b : Byte) (s : State) : State :=
  if b = dle then { s with rxsm := .seekStx } else s

/-- R154 to R156: the byte after DLE. STX completes the marker; any other byte ends the operation, or
resumes the search where `RESYNC_ON_BAD_STX` is set. -/
def seekStx (b : Byte) (s : State) : State :=
  if b = stx then { s with rxsm := .readLength, lenAcc := 0, lenCount := 0 }
  else if s.cfg.resyncOnBadStx then
    if b = dle then s else { s with rxsm := .seekDle }
  else finish .noFrameMarker .badStx { s with rxsm := .timeout }

/-- R157: the operation ends with the decoded length. -/
def lengthDone (length : U32) (s : State) : State :=
  finish .ok .none { s with resultLen := length, rxsm := .done }

/-- R157: `READ_LENGTH` takes the bytes `bs`, and the fourth ends the operation. -/
def readLength (bs : List Byte) (s : State) : State :=
  let t := { s with
    lenAcc := accumulate s.lenAcc bs,
    lenCount := BitVec.ofNat 3 (s.lenCount.toNat + bs.length) }
  if t.lenCount = 4 then lengthDone t.lenAcc t else t

/-- R159: the deadline result of RECV_LEN. Its code depends on the state it expires in. -/
def recvLenExpired (s : State) : State :=
  finish (if s.rxsm = .readLength then .incompleteLength else .noFrameMarker) .deadline
    { s with rxsm := .timeout }

/-- R153 to R157: what a read of the byte `b` and the rest of `bs` does in each receive state. In the
terminal states RECV_LEN does not run (R161) and no rule applies. DESIGN CHOICE
(log entry 7). -/
def receive (b : Byte) (bs : List Byte) (s : State) : State :=
  match s.rxsm with
  | .seekDle => seekDle b s
  | .seekStx => seekStx b s
  | .readLength => readLength bs s
  | .done => s
  | .timeout => s
  | .cancelled => s

/-- R152, R158 to R160, the `iterate:` block of RECV_LEN: cancellation first, then the data, and the
deadline only when there is none (R261). -/
def recvLenIterate (s : State) : State :=
  if s.cancel then finish .cancelled .cancel { s with rxsm := .cancelled }
  else
    let r := transportRead (rxAsk s) s
    match r.1 with
    | [] => zeroTransfer s.cfg.pPollRx recvLenExpired r.2
    | b :: bs => receive b (b :: bs) (setDeadline r.2)

/-- RECV_LEN (R150). -/
def execRecvLen (s : State) : Result :=
  operationStep (fun s => .next (recvLenStart s)) (fun s => .next (recvLenIterate s))
    (fun p => p == .rxRun) s

/-- The response header the present iteration of RECV_LEN completes, if it completes one: the marker
that `RXSM` says was recognised, the length bytes accumulated so far, and those its read returns
(R93, R152, R157). -/
def completedHeader (s : State) : Option (List Byte) :=
  if s.busy && s.phase == .rxRun && !s.waiting && !s.cancel && s.rxsm == .readLength then
    if 0 < rxAsk s ∧ (transportRead (rxAsk s) s).1.length = rxAsk s then
      some (dle :: stx :: (lengthBytes s ++ (transportRead (rxAsk s) s).1))
    else none
  else none

/-- RESPONSE_HEADER (R93, R134, R135): the header announcing `length` payload bytes is complete. Its
last bytes are consumed, the deadline is reset (R158), and RECV_LEN ends with the decoded length
(R157). At any other time the block takes no step for it. DESIGN CHOICE
(log entry 9). -/
def execResponseHeader (length : U32) (s : State) : Result :=
  if completedHeader s = some (header length) then
    .next (lengthDone length
      { setDeadline (transportRead (rxAsk s) s).2 with lenAcc := length, lenCount := 4 })
  else .next s

end Sys2Proof.Machine
end

