-- ==== Sys2Proof/Machine/Dispatch.lean ====
section
/-! DEFINITION. One arm per instruction, each a direct call of its meaning. -/

namespace Sys2Proof.Machine

def exec (i : Instr) (s : State) : Host.Outcome State Fault Refusal :=
  match i with
  | .request cmd => Sys2Proof.Machine.execRequest cmd s
  | .recvLen => Sys2Proof.Machine.execRecvLen s
  | .recvBuf capacity length => Sys2Proof.Machine.execRecvBuf capacity length s
  | .recvSink length => Sys2Proof.Machine.execRecvSink length s
  | .send length => Sys2Proof.Machine.execSend length s
  | .frameReadHeader => Sys2Proof.Machine.execFrameReadHeader s
  | .frameReadRom => Sys2Proof.Machine.execFrameReadRom s
  | .frameReadRam => Sys2Proof.Machine.execFrameReadRam s
  | .frameWriteRam => Sys2Proof.Machine.execFrameWriteRam s
  | .frameGetRamSize => Sys2Proof.Machine.execFrameGetRamSize s
  | .frameReservedCmd cmd => Sys2Proof.Machine.execFrameReservedCmd cmd s
  | .responseHeader length => Sys2Proof.Machine.execResponseHeader length s

end Sys2Proof.Machine
end

