-- ==== Sys2Proof/Machine/Fetch.lean ====
section
/-! DEFINITION. Where the block's next instruction comes from. The block fetches nothing from a memory
(20_memory.md R80): a start takes the operation from `DESC`, and a running operation is the one its
latched registers and its phase name (10_state.md R22, R23, R44). What REQUEST puts on the wire and
what RECV_LEN has received are decoded as the frame or the header they are. -/

namespace Sys2Proof.Machine

/-- R80, R130: a start decodes the descriptor at `DESC`. -/
def fetchStart (s : State) : Except DecodeError Instr := decode (.descriptor s.desc)

/-- The instruction the running operation executes next; `none` where the block is idle, or where
`BUSY = 1` in `IDLE`, which no run reaches. -/
def fetchRunning (s : State) : Option Instr :=
  if s.busy then
    match s.phase with
    | .idle => none
    | .reqSend => (decode (.wire (frame s.cmdR))).toOption
    | .rxRun =>
      match completedHeader s with
      | some h => (decode (.wire h)).toOption
      | none => some .recvLen
    | .bufRun => some (.recvBuf s.capacityR s.total)
    | .sinkRun => some (.recvSink s.total)
    | .sendFetch => some (.send s.total)
    | .sendWrite => some (.send s.total)
  else none

/-- `s` with a descriptor at `DESC` and its start as the next move of an idle block. -/
def placeDescriptor (d : Desc) (s : State) : State :=
  { s with busy := false, desc := d, agenda := .start :: s.agenda }

/-- Answers that move as many bytes as any primitive can ask for. -/
def readyAnswers : Answers := ⟨2 ^ 32, 2 ^ 32, 2 ^ 32, 2 ^ 32⟩

/-- `s` with a REQUEST about to send the frame of `cmd`, and the block's turn next. -/
def placeFrame (cmd : Byte) (s : State) : State :=
  { s with
    busy := true, op := 1, phase := .reqSend, waiting := false, cmdR := cmd,
    agenda := .block readyAnswers :: s.agenda }

/-- `s` with a RECV_LEN that has just recognised the marker, the length bytes `bs` next in the receive
buffer, and the block's turn next. -/
def placeHeader (bs : List Byte) (s : State) : State :=
  { s with
    busy := true, op := 2, phase := .rxRun, rxsm := .readLength, waiting := false, cancel := false,
    lenAcc := 0, lenCount := 0, rx := bs ++ s.rx,
    agenda := .block readyAnswers :: s.agenda }

/-- `s` with the instruction of a table row stored where the next step fetches it. -/
def placeWord (nbits w : Nat) (s : State) : State :=
  if nbits = 56 then placeFrame (BitVec.ofNat 8 w) s
  else if nbits = 48 then placeHeader ((bytesBE 6 w).drop 2) s
  else placeDescriptor (BitVec.ofNat 64 w) s

end Sys2Proof.Machine
end

