-- ==== Sys2Proof/Machine/HostPort.lean ====
section
/-! DEFINITION. The host's side of the block: reading registers and the buffer (10_state.md R46, R49),
host programs, their textual form (30_encoding.md R108) and the end of a run of one (60_exceptions.md
R280), and the host transactions (R109). -/

namespace Sys2Proof.Machine

/-- What a host-visible register reads as, a number in the encodings of R104 to R107. -/
def readReg (r : Reg) (s : State) : Nat :=
  match r with
  | .busy => s.busy.toNat
  | .op => s.op.toNat
  | .state => (phaseCode s.phase).toNat
  | .rxsm => (rxCode s.rxsm).toNat
  | .lenAcc => s.lenAcc.toNat
  | .lenCount => s.lenCount.toNat
  | .resultLen => s.resultLen.toNat
  | .deadline => s.deadline
  | .waiting => s.waiting.toNat
  | .wake => s.wake
  | .waitKind => (waitKindCode s.waitKind).toNat
  | .total => s.total.toNat
  | .remaining => s.remaining.toNat
  | .offset => s.offset.toNat
  | .capacityR => s.capacityR.toNat
  | .cmdR => s.cmdR.toNat
  | .txcLen => s.txcLen.toNat
  | .txcPos => s.txcPos.toNat
  | .progressCount => s.progressCount.toNat
  | .status => (statusCode s.status).toNat
  | .cause => (causeCode s.cause).toNat

/-- R46: the host reads a register, at any time. The block is not touched. -/
def hostReadReg (r : Reg) (s : State) : State :=
  { s with hostReads := s.hostReads ++ [.register r (readReg r s)] }

/-- R46, R49, R279: the host reads bytes of `BUF`. A byte without a written-mark faults, and so does
an index past the end of `BUF` (R60). R68 gives reads lengths from 1 up. A read of no byte is recorded
as an empty one up to index `BUF_SIZE` and is outside `BUF` beyond it: DESIGN CHOICE (log entry 21). -/
def hostReadBuf (index count : Nat) (s : State) : Result :=
  if s.cfg.bufSize < index + count then .fault (.outsideBuf (max index s.cfg.bufSize))
  else
    match s.buf.readBytes index count with
    | .ok bs => .next { s with hostReads := s.hostReads ++ [.buffer index bs] }
    | .error i => .fault (.unwrittenRead .buf i)

/-! ## Host programs (R108) -/

/-- The number a length operand stands for; `RESULT_LEN` is the register as it stands. -/
def LengthArg.value (resultLen : U32) : LengthArg → U32
  | .lit n => n
  | .resultLen => resultLen

/-- The operation a line stands for, given `RESULT_LEN`. -/
def lineInstr (resultLen : U32) : LineOp → Instr
  | .request cmd => .request cmd
  | .recvLen => .recvLen
  | .recvBuf length capacity => .recvBuf capacity (LengthArg.value resultLen length)
  | .recvSink length => .recvSink (LengthArg.value resultLen length)
  | .send length => .send (LengthArg.value resultLen length)

/-- The encoding of a line: the descriptor of R101. -/
def lineDesc (resultLen : U32) (op : LineOp) : Desc :=
  match encode (lineInstr resultLen op) with
  | .descriptor d => d
  | .wire _ => 0

/-- R108: a program as the host takes it up. Before its first line no line of it has ended, so that
line runs whatever `STATUS` an earlier program left. DESIGN CHOICE (log entry 14). -/
def takeUp : List Line → List Line
  | [] => []
  | line :: rest => { line with always := true } :: rest

/-- What a host program does next (R108): it waits while an operation runs, and it stops at the first
line whose `STATUS` is not `OK` unless the next line runs always. -/
inductive HostTurn where
  | waits
  | stops
  | starts (line : Line) (rest : List Line)
  deriving DecidableEq, Repr

/-- R108: the turn of the host's program. -/
def hostTurn (s : State) : HostTurn :=
  match s.program with
  | [] => .stops
  | line :: rest =>
    if s.busy then .waits
    else if line.always || s.status == .ok then .starts line rest
    else .stops

/-- R109: the operations a transaction expands to. Each stops at the first status other than `OK`; its
first line begins a transaction of its own and runs always. WRITE_RAM has no RECV_LEN (R97, R298). -/
def Transaction.expand : Transaction → List Line
  | .readHeader =>
    [⟨.request 0x01, true⟩, ⟨.recvLen, false⟩, ⟨.recvBuf .resultLen 32, false⟩]
  | .readRom =>
    [⟨.request 0x02, true⟩, ⟨.recvLen, false⟩, ⟨.recvSink .resultLen, false⟩]
  | .readRamSink =>
    [⟨.request 0x03, true⟩, ⟨.recvLen, false⟩, ⟨.recvSink .resultLen, false⟩]
  | .readRamBuf capacity =>
    [⟨.request 0x03, true⟩, ⟨.recvLen, false⟩, ⟨.recvBuf .resultLen capacity, false⟩]
  | .writeRam length => [⟨.request 0x04, true⟩, ⟨.send (.lit length), false⟩]
  | .getRamSize =>
    [⟨.request 0xF0, true⟩, ⟨.recvLen, false⟩, ⟨.recvBuf .resultLen 4, false⟩]

/-- R98, R109: what the host computes from the get-ram-size payload, `be32(BUF[0..4))`. -/
def ramSize (s : State) : Option U32 :=
  match s.buf.readBytes 0 4 with
  | .ok [b0, b1, b2, b3] => some (be32 b0 b1 b2 b3)
  | _ => none

/-! ## The end of a run (R280) -/

/-- How far a run of a host program has come (R280). -/
inductive RunEnd where
  /-- (a) The block is idle, and the program has no operation left to start or stops at a failure. -/
  | done
  /-- (b) A fault of R279, or the model's own fault for a read outside `BUF` (log entry 10). -/
  | fault (reason : Fault)
  /-- (c) Still running: the operation can go on, or the next one is still to start. -/
  | running
  /-- (c) Still running: a wait is pending and `now` has not reached `WAKE`. -/
  | waitPending
  /-- (d) Time stopped: a wait is pending that the time still to pass does not end. -/
  | timeStopped
  /-- No run at all: the configuration is refused (R279). -/
  | refused (reason : Refusal)
  deriving DecidableEq, Repr

/-- The time still to pass. -/
def ticksLeft : List Move → Nat
  | [] => 0
  | .tick n :: rest => n + ticksLeft rest
  | _ :: rest => ticksLeft rest

/-- Whether the host still starts an operation of its own or takes up another program. -/
def startsLeft (agenda : List Move) : Bool :=
  agenda.any (fun m => match m with | .start => true | .loadProgram _ => true | _ => false)

/-- R280 (a), (c) and (d), read from a state. The agenda is all that is still to come,
so time has stopped where neither its ticks nor a reset end the wait. DESIGN CHOICE (log entry 23). -/
def runEndOf (s : State) : RunEnd :=
  if s.busy then
    if s.waiting && decide (s.now < s.wake) then
      if decide (s.now + ticksLeft s.agenda < s.wake) && !s.agenda.contains .reset then .timeStopped
      else .waitPending
    else .running
  else if startsLeft s.agenda then .running
  else
    match hostTurn s with
    | .stops => .done
    | .waits => .running
    | .starts _ _ => .running

/-- R280: which of its cases the outcome of a run is in. An idle block whose program has a line to
start is still running: (a) wants the last operation, or the one the program stops at. -/
def runEnd : Result → RunEnd
  | .next s => runEndOf s
  | .fault reason => .fault reason
  | .refused reason => .refused reason

/-! ## The textual form of a line (R108) -/

/-- A line up to its comment. -/
def beforeComment : List Char → List Char
  | [] => []
  | c :: cs => if c = ';' then [] else c :: beforeComment cs

/-- A word that is finished, if there is one. -/
def finishedWord (w : List Char) : List (List Char) := if w = [] then [] else [w]

/-- The words of a line; a comma is a word of its own and spaces part words. -/
def words (current : List Char) : List Char → List (List Char)
  | [] => finishedWord current
  | c :: cs =>
    if c = ' ' then finishedWord current ++ words [] cs
    else if c = ',' then finishedWord current ++ [','] :: words [] cs
    else words (current ++ [c]) cs

/-- The value of a digit in a base up to 16. -/
def digit (base : Nat) (c : Char) : Option Nat :=
  let n := c.toNat
  let v := if 48 ≤ n ∧ n ≤ 57 then n - 48
    else if 65 ≤ n ∧ n ≤ 70 then n - 55
    else if 97 ≤ n ∧ n ≤ 102 then n - 87
    else 16
  if v < base then some v else none

/-- The number written by digits after `acc`. -/
def digits (base acc : Nat) : List Char → Option Nat
  | [] => some acc
  | c :: cs =>
    match digit base c with
    | some v => digits base (acc * base + v) cs
    | none => none

/-- A decimal or `0x` hexadecimal operand below `bound`. -/
def number (bound : Nat) (w : List Char) : Option Nat :=
  let n := match w with
    | '0' :: 'x' :: d :: ds => digits 16 0 (d :: ds)
    | d :: ds => digits 10 0 (d :: ds)
    | [] => none
  match n with
  | some v => if v < bound then some v else none
  | none => none

/-- A length operand: a number or the name `RESULT_LEN`. -/
def lengthArg (w : List Char) : Option LengthArg :=
  if w = "RESULT_LEN".toList then some .resultLen
  else (number (2 ^ 32) w).map (fun n => .lit (BitVec.ofNat 32 n))

/-- The operation a line of text writes (R108); `none` where it is no line of the form. -/
def parseLine (text : List Char) : Option LineOp :=
  match words [] (beforeComment text) with
  | [name] =>
    if name = "RECV_LEN".toList then some .recvLen else none
  | [name, arg] =>
    if name = "REQUEST".toList then
      (number 256 arg).map (fun n => .request (BitVec.ofNat 8 n))
    else if name = "RECV_SINK".toList then (lengthArg arg).map .recvSink
    else if name = "SEND".toList then (lengthArg arg).map .send
    else none
  | [name, arg, comma, cap] =>
    if name = "RECV_BUF".toList ∧ comma = [','] then
      match lengthArg arg, number (2 ^ 16) cap with
      | some l, some c => some (.recvBuf l (BitVec.ofNat 16 c))
      | _, _ => none
    else none
  | _ => none

end Sys2Proof.Machine
end

