-- ==== Sys2Proof/Machine/Agents.lean ====
section
/-! DEFINITION. What one move of one agent does (00_scope.md R5): the block's step, the transport's
arrivals, the host's requests, reads and inputs, the time agent's advance, and the reset input. -/

namespace Sys2Proof.Machine

/-- R5, R6, R21: one step of the block. An idle block takes no step. -/
def blockStep (s : State) : Result :=
  match fetchRunning s with
  | some i => exec i s
  | none => .next s

/-- R130, R258, R265: a start request. A start while `BUSY = 1` is a fault and changes nothing; an
invalid descriptor ends at once with `ILLEGAL_OP`; a valid one runs the start step of its operation. -/
def startStep (s : State) : Result :=
  if s.busy then .fault (.hostProtocol s.desc)
  else
    match fetchStart s with
    | .ok i => exec i s
    | .error _ => .next (illegalOp (descOp s.desc) s)

/-- R108: the host goes on with its program. A line that starts is presented at `DESC`. -/
def programStep (s : State) : Result :=
  match hostTurn s with
  | .waits => .next s
  | .stops => .next { s with program := [] }
  | .starts line rest =>
    startStep { s with desc := lineDesc s.resultLen line.op, program := rest }

/-- One move of one agent. The host may supply a new source or sink at any time, while an operation
runs too: DESIGN CHOICE (log entry 20). -/
def move (m : Move) (s : State) : Result :=
  match m with
  | .block answers => blockStep { s with answers := answers }
  | .tick ticks => .next { s with now := s.now + ticks }
  | .arrive bytes => .next { s with rx := s.rx ++ bytes }
  | .setCancel level => .next { s with cancel := level }
  | .present desc => .next { s with desc := desc }
  | .start => startStep s
  | .readReg r => .next (hostReadReg r s)
  | .readBuf index count => hostReadBuf index count s
  | .supplySource bytes => .next { s with source := bytes, sourcePos := 0 }
  | .supplySink => .next { s with sink := [] }
  | .loadProgram lines => .next { s with program := takeUp lines }
  | .nextLine => programStep s
  | .reset => .next (resetBlock s)

end Sys2Proof.Machine
end

