-- ==== Sys2Proof/Machine/Step.lean ====
section
/-! DEFINITION. One step of the machine: the next move of the agenda (00_scope.md R5). A configuration
outside 00_scope.md R8 is refused (60_exceptions.md R279). Where the agenda is empty no agent moves and
the state stays as it is (log entry 3). -/

namespace Sys2Proof.Machine

/-- One step: the first move on the agenda is taken. -/
def step (s : State) : Host.Outcome State Fault Refusal :=
  if s.cfg.valid then
    match s.agenda with
    | [] => .next s
    | m :: rest => move m { s with agenda := rest }
  else .refused .badConfiguration

/-- `s` with the instruction of a table row stored where the next step fetches it: a descriptor at
`DESC` with its start request (R130), a request frame as the one REQUEST is about to send (R131), a
response header as the one RECV_LEN is about to complete (R157). -/
def State.withFetchWord (s : State) (nbits w : Nat) : State := placeWord nbits w s

end Sys2Proof.Machine
end

