-- ==== Sys2Proof/Safety.lean ====
section
/-! DEFINITION. What counts as a safe state and a safe run, in the terms the claims use: the invariant
of the machine, the phases with a deadline or with counters, and the stream the receive state machine
still has before it. The ends of a run (60_exceptions.md R280) are `runEnd` in `Machine/HostPort.lean`. -/

namespace Sys2Proof.Machine

/-- The operation code of each phase (R22, R23, R102). -/
def phaseOp : Phase → BitVec 3
  | .idle => 0
  | .reqSend => 1
  | .rxRun => 2
  | .bufRun => 3
  | .sinkRun => 4
  | .sendFetch => 5
  | .sendWrite => 5

/-- The phases of the three bulk operations (R30 to R33). -/
def isBulk : Phase → Bool
  | .idle => false
  | .reqSend => false
  | .rxRun => false
  | .bufRun => true
  | .sinkRun => true
  | .sendFetch => true
  | .sendWrite => true

/-- The phases in which an iteration may transfer bytes of the running operation under the sliding
deadline and `CANCEL` (R266, R270). -/
def isIterating : Phase → Bool
  | .idle => false
  | .reqSend => false
  | .rxRun => true
  | .bufRun => true
  | .sinkRun => true
  | .sendFetch => true
  | .sendWrite => true

/-- The longest a wait of this kind lasts in this phase (R29, R160, R182, R189, R224, R227). -/
def waitLength (s : State) : Nat :=
  match s.waitKind with
  | .throttle => s.cfg.dThrottle
  | .poll => if s.phase = .rxRun then s.cfg.pPollRx else s.cfg.pPollBulk

/-- The invariant of the machine. It holds at reset and every step keeps it. -/
structure Inv (s : State) : Prop where
  /-- The memories keep their canonical form. -/
  bufWf : s.buf.wf = true
  txcWf : s.txc.wf = true
  rxcWf : s.rxc.wf = true
  /-- Only existing bytes are ever written (R60). -/
  bufWithin : s.buf.within s.cfg.bufSize = true
  txcWithin : s.txc.within s.cfg.chunkTx = true
  rxcWithin : s.rxc.within s.cfg.chunkRx = true
  /-- R21, R23: the block is busy exactly when an operation has a phase. -/
  busyPhase : s.busy = true ↔ s.phase ≠ .idle
  /-- R29, R131: only an iterating operation waits. -/
  waitPhase : s.waiting = true → isIterating s.phase = true
  /-- R22: `OP` names the running operation. -/
  opPhase : s.phase ≠ .idle → s.op = phaseOp s.phase
  /-- R39: no result while an operation runs. -/
  noResult : s.busy = true → s.status = .none ∧ s.cause = .none
  /-- R250: no other pair of result and cause is ever written. -/
  resultLegal : s.status = .none ∧ s.cause = .none ∨ isResult s.status s.cause = true
  /-- R26: `LEN_COUNT` values 5 to 7 never occur. -/
  lenCountBound : s.lenCount.toNat ≤ 4
  /-- R25: the accumulator holds no more than the bytes counted. -/
  lenAccBound : s.lenAcc.toNat < 256 ^ s.lenCount.toNat
  /-- R24, R161: no terminal state while RECV_LEN runs. -/
  rxRunning : s.phase = .rxRun →
    s.rxsm = .seekDle ∨ s.rxsm = .seekStx ∨ s.rxsm = .readLength
  /-- R24: `SEEK_STX` and `READ_LENGTH` occur only while RECV_LEN runs. -/
  rxOutside : s.phase ≠ .rxRun → s.rxsm ≠ .seekStx ∧ s.rxsm ≠ .readLength
  /-- R151, R154: nothing is accumulated before `READ_LENGTH`. -/
  lenSeeking : s.phase = .rxRun → s.rxsm ≠ .readLength → s.lenCount = 0 ∧ s.lenAcc = 0
  /-- R26, R157: `READ_LENGTH` ends when the count reaches 4. -/
  lenReading : s.phase = .rxRun → s.rxsm = .readLength → s.lenCount.toNat < 4
  /-- R33: the counters of a running bulk operation add up. -/
  counters : isBulk s.phase = true → s.offset.toNat + s.remaining.toNat = s.total.toNat
  /-- R182, R189, R224: an iteration that can transfer has bytes left to move. -/
  bytesLeft : s.phase = .bufRun ∨ s.phase = .sinkRun ∨ s.phase = .sendWrite → s.remaining ≠ 0
  /-- R61, R181: a running RECV_BUF fits its capacity, and its capacity the buffer. -/
  bufFits : s.phase = .bufRun →
    s.total.toNat ≤ s.capacityR.toNat ∧ s.capacityR.toNat ≤ s.cfg.bufSize
  /-- R36: `0 <= TXC_POS <= TXC_LEN <= CHUNK_TX`. -/
  chunkBounds : s.txcPos.toNat ≤ s.txcLen.toNat ∧ s.txcLen.toNat ≤ s.cfg.chunkTx
  /-- R224: a chunk being written has bytes left, and no more than the operation has. -/
  chunkLeft : s.phase = .sendWrite → s.txcPos.toNat < s.txcLen.toNat ∧
    s.txcLen.toNat - s.txcPos.toNat ≤ s.remaining.toNat
  /-- R49, R222: every byte of the chunk being written was fetched. -/
  chunkWritten : s.phase = .sendWrite → ∀ i < s.txcLen.toNat, (s.txc.read i).isSome = true
  /-- R29, R227: a wait before a fetch is a throttle, and every other wait a poll. -/
  waitKinds : s.waiting = true → (s.waitKind = .throttle ↔ s.phase = .sendFetch)
  /-- R29: a wait ends within its own length from any time in it. -/
  wakeBound : s.waiting = true → s.wake ≤ s.now + waitLength s
  /-- R270: the deadline is never more than `T_TIMEOUT` away. -/
  deadlineBound : s.deadline ≤ s.now + s.cfg.tTimeout
  /-- R65: the source is never read past its end. -/
  sourceBound : s.sourcePos ≤ s.source.length

/-- A step that does not stop. -/
def Completes (r : Result) : Prop := ∃ t, r = .next t

/-- R277: what the host must not do at this step: start while an operation runs, or read a byte of
`BUF` that does not exist or was not written. -/
def hostKeepsContract (s : State) : Bool :=
  match s.agenda with
  | .start :: _ => !s.busy
  | .readBuf index count :: _ =>
    decide (index + count ≤ s.cfg.bufSize)
      && (List.range count).all (fun i => (s.buf.read (index + i)).isSome)
  | _ => true

/-- The receive stream as a running RECV_LEN still sees it: what it has recognised and accumulated,
put back before the bytes it has not read (R152 to R157). -/
def headerStream (s : State) : List Byte :=
  match s.rxsm with
  | .seekDle => s.rx
  | .seekStx => dle :: s.rx
  | .readLength => dle :: stx :: (lengthBytes s ++ s.rx)
  | .done => s.rx
  | .timeout => s.rx
  | .cancelled => s.rx

/-- A running SEND that has transmitted, after `base`, the first `OFFSET` bytes of the source from
`origin`, and whose chunk holds the source's bytes that come next (R67, R225). -/
structure SendStream (base : List Byte) (origin : Nat) (s : State) : Prop where
  running : s.phase = .sendFetch ∨ s.phase = .sendWrite
  sent : s.tx = base ++ (s.source.drop origin).take s.offset.toNat
  fetched : s.phase = .sendFetch → s.sourcePos = origin + s.offset.toNat
  chunkEnd : s.phase = .sendWrite →
    s.sourcePos + s.txcPos.toNat = origin + s.offset.toNat + s.txcLen.toNat
  chunk : s.phase = .sendWrite → ∀ i < s.txcLen.toNat,
    s.txc.read i = s.source[origin + s.offset.toNat + i - s.txcPos.toNat]?

/-- `k` steps of the machine, stopping at the first fault or refusal. -/
def runs (k : Nat) (s : State) : Result := Host.Core.run Sys2Proof.core k s

/-- Answers of collaborators that move no byte at all: a stalled transport (R271). -/
def stalled : Answers := ⟨0, 0, 0, 0⟩

/-- Ideal time over a stalled transport (R303): `n` times an iteration that moves nothing, the poll
interval, and the end of the wait; and then one iteration more. -/
def stallMoves (poll : Nat) : Nat → List Move
  | 0 => [.block stalled]
  | n + 1 => .block stalled :: .tick poll :: .block stalled :: stallMoves poll n

/-- The rest of a step's outcome, changed by `f` where there is a next state. -/
def mapNext (f : State → State) : Result → Result
  | .next t => .next (f t)
  | .fault r => .fault r
  | .refused r => .refused r

end Sys2Proof.Machine
end

