-- ==== Sys2Proof/Certificates/Slice0/Obligations.lean ====
section
/-! DEFINITION. The statements for the provers. Each docstring names the rule of spec/ it formalises. -/

open Sys2Proof Sys2Proof.Machine

/-! ## Encodings -/

/-- R92, R93, R101, R103: decoding what the encoder writes gives the instruction back, for every
well-formed instruction and every operand. -/
def Obligations.DecodeOfEncode : Prop :=
  ∀ i : Instr, i.wellFormed = true → decode (encode i) = .ok i

/-- R103, R110: a word or a sequence of bytes that decodes is the encoding of the well-formed
instruction it decodes to, so no bit of it is dropped; a descriptor decodes to an operation only. -/
def Obligations.DecodeMeansEncoding : Prop :=
  ∀ (e : Encoded) (i : Instr), decode e = .ok i →
    encode i = e ∧ i.wellFormed = true ∧ (∀ d, e = .descriptor d → i.isOperation = true)

/-- R103: a descriptor decodes exactly when it matches a row of the table of masks; the bound on
RECV_BUF's capacity is in `RecvBufStarts`. -/
def Obligations.DescriptorValidByMask : Prop :=
  ∀ d : Desc, (∃ i, decode (.descriptor d) = .ok i) ↔
    (d &&& 0xFFFFFFFFFFFF00FF = 0x0000000000000001 ∨ d &&& 0xFFFFFFFFFFFFFFFF = 0x0000000000000002
      ∨ d &&& 0x000000000000FFFF = 0x0000000000000003
      ∨ d &&& 0x00000000FFFFFFFF = 0x0000000000000004
      ∨ d &&& 0x00000000FFFFFFFF = 0x0000000000000005)

/-- 95_test_vectors.md V1, V5, V7, V8, E1 and E3: words written out from the encodings decode to the
instructions they stand for, and V9, V12, V18 to none. -/
def Obligations.SampleWordsDecode : Prop :=
  decode (.descriptor 0x0000000000000101) = .ok (.request 0x01)
    ∧ decode (.descriptor 0x0000000000000002) = .ok .recvLen
    ∧ decode (.descriptor 0x0000000900200003) = .ok (.recvBuf 32 9)
    ∧ decode (.descriptor 0x0000044C00000004) = .ok (.recvSink 1100)
    ∧ decode (.descriptor 0x0000004000000005) = .ok (.send 64)
    ∧ decode (.wire [0x10, 0x02, 0x00, 0x00, 0x00, 0x01, 0xF0]) = .ok .frameGetRamSize
    ∧ decode (.wire [0x10, 0x02, 0x00, 0x00, 0x00, 0x01, 0x7E]) = .ok (.frameReservedCmd 0x7E)
    ∧ decode (.wire [0x10, 0x02, 0x00, 0x00, 0x20, 0x00]) = .ok (.responseHeader 8192)
    ∧ decode (.descriptor 0x0000000000000000) = .error (.reservedOp 0)
    ∧ decode (.descriptor 0x0000000000000109) = .error (.mustBeZero 1)
    ∧ decode (.descriptor 0x0000004000000405) = .error (.mustBeZero 5)

/-- R133: the request frame decoder answers a command exactly on that command's frame, which has seven
bytes. -/
def Obligations.UnframeInvertsFrame : Prop :=
  ∀ (s : List Byte) (c : Byte),
    (unframe s = some c ↔ s = [0x10, 0x02, 0x00, 0x00, 0x00, 0x01, c])
      ∧ unframe (frame c) = some c ∧ (frame c).length = 7

/-- R12: the big-endian decode of four bytes, the big-endian encode of a `u32`, and that the decode
undoes the encode. -/
def Obligations.BigEndianRoundTrip : Prop :=
  (∀ b0 b1 b2 b3 : Byte,
    (be32 b0 b1 b2 b3).toNat = b0.toNat * 2 ^ 24 + b1.toNat * 2 ^ 16 + b2.toNat * 2 ^ 8 + b3.toNat)
  ∧ ∀ v : U32,
    be32enc v = [v.extractLsb' 24 8, v.extractLsb' 16 8, v.extractLsb' 8 8, v.extractLsb' 0 8]
      ∧ be32 (v.extractLsb' 24 8) (v.extractLsb' 16 8) (v.extractLsb' 8 8) (v.extractLsb' 0 8) = v

/-- R134, R135: a 6-byte sequence is a response header exactly when it begins with the marker, and
then the length decoder gives the big-endian value of its other four bytes. -/
def Obligations.HeaderIsMarkerAndLength : Prop :=
  ∀ b0 b1 b2 b3 b4 b5 : Byte,
    (isHeader [b0, b1, b2, b3, b4, b5] = true ↔ b0 = 0x10 ∧ b1 = 0x02)
      ∧ hdrLen [b0, b1, b2, b3, b4, b5] = some (be32 b2 b3 b4 b5)

/-- R157: the accumulated length is the big-endian value of the four bytes, into however many reads
they are split. -/
def Obligations.LengthIndependentOfSplit : Prop :=
  ∀ (reads : List (List Byte)) (b0 b1 b2 b3 : Byte), reads.flatten = [b0, b1, b2, b3] →
    reads.foldl accumulate 0 = be32 b0 b1 b2 b3

/-- R101, R108: the descriptor of every form of a program line, field by field at its place, and the
operation it decodes to. `RESULT_LEN` stands for the register's value `r`. -/
def Obligations.LineEncodesItsOperation : Prop :=
  ∀ (r n : U32) (cmd : Byte) (cap : BitVec 16),
    ((lineDesc r (.request cmd)).toNat = 1 + cmd.toNat * 2 ^ 8
      ∧ decode (.descriptor (lineDesc r (.request cmd))) = .ok (.request cmd))
    ∧ ((lineDesc r .recvLen).toNat = 2
      ∧ decode (.descriptor (lineDesc r .recvLen)) = .ok .recvLen)
    ∧ ((lineDesc r (.recvBuf (.lit n) cap)).toNat = 3 + cap.toNat * 2 ^ 16 + n.toNat * 2 ^ 32
      ∧ decode (.descriptor (lineDesc r (.recvBuf (.lit n) cap))) = .ok (.recvBuf cap n))
    ∧ ((lineDesc r (.recvBuf .resultLen cap)).toNat = 3 + cap.toNat * 2 ^ 16 + r.toNat * 2 ^ 32
      ∧ decode (.descriptor (lineDesc r (.recvBuf .resultLen cap))) = .ok (.recvBuf cap r))
    ∧ ((lineDesc r (.recvSink (.lit n))).toNat = 4 + n.toNat * 2 ^ 32
      ∧ decode (.descriptor (lineDesc r (.recvSink (.lit n)))) = .ok (.recvSink n))
    ∧ ((lineDesc r (.recvSink .resultLen)).toNat = 4 + r.toNat * 2 ^ 32
      ∧ decode (.descriptor (lineDesc r (.recvSink .resultLen))) = .ok (.recvSink r))
    ∧ ((lineDesc r (.send (.lit n))).toNat = 5 + n.toNat * 2 ^ 32
      ∧ decode (.descriptor (lineDesc r (.send (.lit n)))) = .ok (.send n))
    ∧ ((lineDesc r (.send .resultLen)).toNat = 5 + r.toNat * 2 ^ 32
      ∧ decode (.descriptor (lineDesc r (.send .resultLen))) = .ok (.send r))

/-! ## Steps -/

/-- R130: a step runs the decoded instruction. A start request of an idle block decodes `DESC` and the
step is `exec` of that instruction; a turn of the block sends the frame it decodes, completes the
header it decodes, or goes on with the operation its latched registers name. The step takes the move
off the agenda and, for the block, takes its collaborators' answers. -/
def Obligations.StepRunsTheDecodedInstruction : Prop :=
  ∀ (s : State) (i : Instr) (rest : List Move) (a : Answers), s.cfg.valid = true →
    (s.agenda = .start :: rest → s.busy = false → decode (.descriptor s.desc) = .ok i →
      step s = exec i { s with agenda := rest })
    ∧ (s.agenda = .block a :: rest → s.busy = true → s.phase = .reqSend →
      decode (.wire [0x10, 0x02, 0x00, 0x00, 0x00, 0x01, s.cmdR]) = .ok i →
      step s = exec i { s with agenda := rest, answers := a })
    ∧ (s.agenda = .block a :: rest → s.busy = true → s.phase = .rxRun →
      step s = exec .recvLen { s with agenda := rest, answers := a })
    ∧ (s.agenda = .block a :: rest → s.busy = true → s.phase = .bufRun →
      step s = exec (.recvBuf s.capacityR s.total) { s with agenda := rest, answers := a })
    ∧ (s.agenda = .block a :: rest → s.busy = true → s.phase = .sinkRun →
      step s = exec (.recvSink s.total) { s with agenda := rest, answers := a })
    ∧ (s.agenda = .block a :: rest → s.busy = true →
      (s.phase = .sendFetch ∨ s.phase = .sendWrite) →
      step s = exec (.send s.total) { s with agenda := rest, answers := a })

/-- R135, R157: in a turn whose read completes the response header, the step is also `exec` of that
header, whose bytes are the marker, the bytes accumulated and the bytes read. -/
def Obligations.StepRunsTheCompletedHeader : Prop :=
  ∀ (s : State) (n : U32) (rest : List Move) (a : Answers) (bs tail : List Byte),
    s.cfg.valid = true → s.agenda = .block a :: rest → s.busy = true → s.phase = .rxRun →
    s.waiting = false → s.cancel = false → s.rxsm = .readLength →
    s.rx = bs ++ tail → bs ≠ [] → bs.length ≤ a.read →
    (be32enc s.lenAcc).drop bs.length ++ bs = be32enc n → s.lenCount.toNat + bs.length = 4 →
      step s = exec (.responseHeader n) { s with agenda := rest, answers := a }

/-- R265, R279: a start while `BUSY = 1` is the fault HOST_PROTOCOL, which names the start. -/
def Obligations.StartWhileBusyFaults : Prop :=
  ∀ (s : State) (rest : List Move), s.cfg.valid = true → s.agenda = .start :: rest →
    s.busy = true → step s = .fault (.hostProtocol s.desc)

/-- R258: a start of an invalid descriptor ends in the same step with `ILLEGAL_OP`, and writes nothing
but `OP`, the result and the DONE event. Invalid are the reserved operation codes, a bit that must be
zero (written with the masks of R103), and a RECV_BUF whose capacity is above the buffer. -/
def Obligations.InvalidDescriptorEndsIllegal : Prop :=
  ∀ (s : State) (rest : List Move), s.cfg.valid = true → s.agenda = .start :: rest →
    s.busy = false →
    (s.desc.extractLsb' 0 3 = 0 ∨ s.desc.extractLsb' 0 3 = 6 ∨ s.desc.extractLsb' 0 3 = 7
      ∨ (s.desc.extractLsb' 0 3 = 1 ∧ s.desc &&& 0xFFFFFFFFFFFF00F8 ≠ 0)
      ∨ (s.desc.extractLsb' 0 3 = 2 ∧ s.desc &&& 0xFFFFFFFFFFFFFFF8 ≠ 0)
      ∨ (s.desc.extractLsb' 0 3 = 3 ∧ s.desc &&& 0x000000000000FFF8 ≠ 0)
      ∨ (s.desc.extractLsb' 0 3 = 4 ∧ s.desc &&& 0x00000000FFFFFFF8 ≠ 0)
      ∨ (s.desc.extractLsb' 0 3 = 5 ∧ s.desc &&& 0x00000000FFFFFFF8 ≠ 0)
      ∨ (s.desc.extractLsb' 0 3 = 3 ∧ s.cfg.bufSize < (s.desc.extractLsb' 16 16).toNat)) →
    step s = .next { s with
      agenda := rest, busy := false, status := .illegalOp, cause := .none,
      op := s.desc.extractLsb' 0 3, phase := .idle, events := s.events ++ [.done] }

/-- R21, R264: while `BUSY = 0` the block takes no step but a start. -/
def Obligations.IdleBlockTakesNoStep : Prop :=
  ∀ (s : State) (a : Answers) (rest : List Move), s.cfg.valid = true →
    s.agenda = .block a :: rest → s.busy = false →
    step s = .next { s with agenda := rest, answers := a }

/-- R29: while `WAITING = 1` the block's only step is the end of the wait, enabled once
`now >= WAKE`; it writes `WAITING` and nothing else. -/
def Obligations.WaitEndsAtWake : Prop :=
  ∀ (s : State) (a : Answers) (rest : List Move), s.cfg.valid = true →
    s.agenda = .block a :: rest → s.busy = true → isIterating s.phase = true →
    s.waiting = true →
    step s = .next { s with
      agenda := rest, answers := a, waiting := decide (s.now < s.wake) }

/-- R265: an operation asked to run while the block runs another one is the fault HOST_PROTOCOL. The
clause at the level of `exec` is the model's own (log entry 8). -/
def Obligations.OperationsNeverOverlap : Prop :=
  ∀ s : State, s.busy = true →
    (s.phase ≠ .reqSend → ∀ c, exec (.request c) s = .fault (.hostProtocol s.desc))
    ∧ (s.phase ≠ .rxRun → exec .recvLen s = .fault (.hostProtocol s.desc))
    ∧ (s.phase ≠ .bufRun → ∀ c n, exec (.recvBuf c n) s = .fault (.hostProtocol s.desc))
    ∧ (s.phase ≠ .sinkRun → ∀ n, exec (.recvSink n) s = .fault (.hostProtocol s.desc))
    ∧ (s.phase ≠ .sendFetch → s.phase ≠ .sendWrite →
        ∀ n, exec (.send n) s = .fault (.hostProtocol s.desc))

/-- R279: a configuration outside R8 is refused and the model takes no step. -/
def Obligations.BadConfigurationRefused : Prop :=
  ∀ s : State,
    (s.cfg.tTimeout = 0 ∨ s.cfg.pPollRx = 0 ∨ s.cfg.pPollBulk = 0 ∨ s.cfg.dThrottle = 0
      ∨ s.cfg.chunkRx = 0 ∨ s.cfg.chunkTx = 0 ∨ s.cfg.bufSize < 32 ∨ 65535 < s.cfg.bufSize) →
    step s = .refused .badConfiguration

/-! ## The packet framer -/

/-- R131: REQUEST latches its command at the start; its one iteration discards the received bytes,
writes the frame of the latched command and ends, whatever `CANCEL` is. -/
def Obligations.RequestSendsItsFrame : Prop :=
  ∀ (c : Byte) (s : State),
    (s.busy = false → exec (.request c) s = .next { s with
      busy := true, status := .none, cause := .none, op := 1, cmdR := c, phase := .reqSend })
    ∧ (s.busy = true → s.phase = .reqSend → s.waiting = false → ∀ m, m = min 7 s.answers.write →
      exec (.request c) s = .next { s with
        rx := [],
        tx := s.tx ++ [0x10, 0x02, 0x00, 0x00, 0x00, 0x01, s.cmdR].take m,
        status := if m < 7 then .transportWrite else .ok,
        cause := if m < 7 then .shortAccept else .none,
        busy := false, phase := .idle, events := s.events ++ [.done] })

/-- R92, R96, R99: every request frame, the reserved commands' included, is put on the wire as its
seven bytes in the iteration that sends it. -/
def Obligations.FramesGoOnTheWire : Prop :=
  ∀ (i : Instr) (c : Byte) (s : State),
    ((i, c) ∈ [(Instr.frameReadHeader, (0x01 : Byte)), (.frameReadRom, 0x02), (.frameReadRam, 0x03),
        (.frameWriteRam, 0x04), (.frameGetRamSize, 0xF0)]
      ∨ (i = .frameReservedCmd c ∧ isReservedCommand c = true)) →
    s.busy = true → s.phase = .reqSend → s.waiting = false → s.cmdR = c →
    ∀ m, m = min 7 s.answers.write →
    exec i s = .next { s with
      rx := [],
      tx := s.tx ++ [0x10, 0x02, 0x00, 0x00, 0x00, 0x01, c].take m,
      status := if m < 7 then .transportWrite else .ok,
      cause := if m < 7 then .shortAccept else .none,
      busy := false, phase := .idle, events := s.events ++ [.done] }

/-- R21, R265: no frame is sent but in the iteration of the REQUEST that latched its command. The
meaning given to a frame at any other time is the model's own (log entry 9). -/
def Obligations.NoFrameOutsideRequest : Prop :=
  ∀ (i : Instr) (c : Byte) (s : State),
    ((i, c) ∈ [(Instr.frameReadHeader, (0x01 : Byte)), (.frameReadRom, 0x02), (.frameReadRam, 0x03),
        (.frameWriteRam, 0x04), (.frameGetRamSize, 0xF0)] ∨ i = .frameReservedCmd c) →
    ¬ (s.busy = true ∧ s.phase = .reqSend ∧ s.cmdR = c) → exec i s = .next s

/-! ## The receive state machine -/

/-- R151: the start of RECV_LEN. -/
def Obligations.RecvLenStarts : Prop :=
  ∀ s : State, s.busy = false → exec .recvLen s = .next { s with
    busy := true, status := .none, cause := .none, op := 2,
    rxsm := .seekDle, lenAcc := 0, lenCount := 0,
    deadline := s.now + s.cfg.tTimeout, phase := .rxRun }

/-- R153, R158: a byte in `SEEK_DLE`. -/
def Obligations.SeekDleTakesOneByte : Prop :=
  ∀ (s : State) (b : Byte) (rest : List Byte), s.busy = true → s.phase = .rxRun →
    s.waiting = false → s.cancel = false → s.rxsm = .seekDle → s.rx = b :: rest →
    1 ≤ s.answers.read →
    exec .recvLen s = .next { s with
      rx := rest, deadline := s.now + s.cfg.tTimeout,
      rxsm := if b = 0x10 then .seekStx else .seekDle }

/-- R154, R155, R156, R158: a byte in `SEEK_STX`, under both settings of `RESYNC_ON_BAD_STX`. -/
def Obligations.SeekStxDecides : Prop :=
  ∀ (s : State) (b : Byte) (rest : List Byte), s.busy = true → s.phase = .rxRun →
    s.waiting = false → s.cancel = false → s.rxsm = .seekStx → s.rx = b :: rest →
    1 ≤ s.answers.read →
    (b = 0x02 → exec .recvLen s = .next { s with
      rx := rest, deadline := s.now + s.cfg.tTimeout,
      rxsm := .readLength, lenAcc := 0, lenCount := 0 })
    ∧ (b ≠ 0x02 → s.cfg.resyncOnBadStx = false → exec .recvLen s = .next { s with
      rx := rest, deadline := s.now + s.cfg.tTimeout, rxsm := .timeout,
      status := .noFrameMarker, cause := .badStx, busy := false, phase := .idle,
      events := s.events ++ [.done] })
    ∧ (b ≠ 0x02 → s.cfg.resyncOnBadStx = true → exec .recvLen s = .next { s with
      rx := rest, deadline := s.now + s.cfg.tTimeout,
      rxsm := if b = 0x10 then .seekStx else .seekDle })

/-- R157, R158: the length bytes a read returns are shifted into the accumulator, and the fourth ends
RECV_LEN with the decoded length. -/
def Obligations.ReadLengthAccumulates : Prop :=
  ∀ (s : State) (bs : List Byte), s.busy = true → s.phase = .rxRun →
    s.waiting = false → s.cancel = false → s.rxsm = .readLength →
    bs = s.rx.take (min (4 - s.lenCount.toNat) s.answers.read) → bs ≠ [] →
    ∀ acc, acc = bs.foldl (fun (a : U32) b => BitVec.ofNat 32 (a.toNat * 256 + b.toNat)) s.lenAcc →
    (s.lenCount.toNat + bs.length < 4 → exec .recvLen s = .next { s with
      rx := s.rx.drop bs.length, deadline := s.now + s.cfg.tTimeout,
      lenAcc := acc, lenCount := BitVec.ofNat 3 (s.lenCount.toNat + bs.length) })
    ∧ (s.lenCount.toNat + bs.length = 4 → exec .recvLen s = .next { s with
      rx := s.rx.drop bs.length, deadline := s.now + s.cfg.tTimeout,
      lenAcc := acc, lenCount := 4, resultLen := acc, rxsm := .done,
      status := .ok, cause := .none, busy := false, phase := .idle,
      events := s.events ++ [.done] })

/-- R152, R159, R160: in every receive state, a read of no byte ends RECV_LEN once the deadline is
reached, with the code of the state, and starts a poll wait before it. -/
def Obligations.RecvLenZeroRead : Prop :=
  ∀ s : State, s.busy = true → s.phase = .rxRun → s.waiting = false → s.cancel = false →
    s.rx.take (min (if s.rxsm = .readLength then 4 - s.lenCount.toNat else 1) s.answers.read) = [] →
    (s.deadline ≤ s.now → exec .recvLen s = .next { s with
      rxsm := .timeout,
      status := if s.rxsm = .readLength then .incompleteLength else .noFrameMarker,
      cause := .deadline, busy := false, phase := .idle, events := s.events ++ [.done] })
    ∧ (s.now < s.deadline → exec .recvLen s = .next { s with
      wake := s.now + s.cfg.pPollRx, waitKind := .poll, waiting := true })

/-- R152, R253: RECV_LEN that sees `CANCEL = 1` ends at once and consumes no byte. -/
def Obligations.RecvLenCancelled : Prop :=
  ∀ s : State, s.busy = true → s.phase = .rxRun → s.waiting = false → s.cancel = true →
    exec .recvLen s = .next { s with
      rxsm := .cancelled, status := .cancelled, cause := .cancel, busy := false, phase := .idle,
      events := s.events ++ [.done] }

/-- R93, R135, R157: a response header, when the read of the present iteration completes it, gives its
length: RECV_LEN ends with it as the result, and the header's last bytes are consumed. -/
def Obligations.ResponseHeaderGivesTheLength : Prop :=
  ∀ (s : State) (n : U32) (bs tail : List Byte), s.busy = true → s.phase = .rxRun →
    s.waiting = false → s.cancel = false → s.rxsm = .readLength →
    s.rx = bs ++ tail → bs ≠ [] → bs.length ≤ s.answers.read →
    (be32enc s.lenAcc).drop bs.length ++ bs = be32enc n → s.lenCount.toNat + bs.length = 4 →
    exec (.responseHeader n) s = .next { s with
      rx := tail, deadline := s.now + s.cfg.tTimeout,
      lenAcc := n, lenCount := 4, resultLen := n, rxsm := .done,
      status := .ok, cause := .none, busy := false, phase := .idle,
      events := s.events ++ [.done] }

/-- R157, R265: at any other time a response header is no step of the block. The meaning given to it
there is the model's own (log entry 9). -/
def Obligations.NoHeaderOutsideReadLength : Prop :=
  ∀ (s : State) (n : U32),
    (s.busy = false ∨ s.phase ≠ .rxRun ∨ s.waiting = true ∨ s.cancel = true
      ∨ s.rxsm ≠ .readLength ∨ s.rx.length < 4 - s.lenCount.toNat
      ∨ s.answers.read < 4 - s.lenCount.toNat) →
    exec (.responseHeader n) s = .next s

/-! ## The bulk transfer engine, receive side -/

/-- R103, R181, R258: the start of RECV_BUF: a capacity above the buffer is an illegal operation, a
length above the capacity ends with `CAPACITY` and a length of 0 with `OK`, before any byte is read. -/
def Obligations.RecvBufStarts : Prop :=
  ∀ (cap : BitVec 16) (n : U32) (s : State), s.busy = false →
    (s.cfg.bufSize < cap.toNat → exec (.recvBuf cap n) s = .next { s with
      op := 3, status := .illegalOp, cause := .none, busy := false, phase := .idle,
      events := s.events ++ [.done] })
    ∧ (cap.toNat ≤ s.cfg.bufSize → cap.toNat < n.toNat → exec (.recvBuf cap n) s = .next { s with
      op := 3, total := n, remaining := n, offset := 0, capacityR := cap,
      deadline := s.now + s.cfg.tTimeout, status := .capacity, cause := .none, busy := false,
      phase := .idle, events := s.events ++ [.done] })
    ∧ (cap.toNat ≤ s.cfg.bufSize → n = 0 → exec (.recvBuf cap n) s = .next { s with
      op := 3, total := 0, remaining := 0, offset := 0, capacityR := cap,
      deadline := s.now + s.cfg.tTimeout, status := .ok, cause := .none, busy := false,
      phase := .idle, events := s.events ++ [.done] })
    ∧ (cap.toNat ≤ s.cfg.bufSize → n ≠ 0 → n.toNat ≤ cap.toNat →
      exec (.recvBuf cap n) s = .next { s with
        op := 3, total := n, remaining := n, offset := 0, capacityR := cap,
        deadline := s.now + s.cfg.tTimeout, status := .none, cause := .none, busy := true,
        phase := .bufRun })

/-- R182, R183, R187: the bytes a read of RECV_BUF returns. Bytes that would pass the capacity are not
written and end the operation; the others go to `BUF` from `OFFSET`, every other byte of `BUF` keeps
its value and its written-mark, and progress is reported. -/
def Obligations.RecvBufCommitsARead : Prop :=
  ∀ (cap : BitVec 16) (n : U32) (s : State) (bs : List Byte), s.busy = true → s.phase = .bufRun →
    s.waiting = false → s.cancel = false →
    bs = s.rx.take (min s.remaining.toNat s.answers.read) → bs ≠ [] →
    (s.capacityR.toNat < s.offset.toNat + bs.length → exec (.recvBuf cap n) s = .next { s with
      rx := s.rx.drop bs.length, status := .capacity, cause := .none, busy := false,
      phase := .idle, events := s.events ++ [.done] })
    ∧ (s.offset.toNat + bs.length ≤ s.capacityR.toNat →
      ∃ m : Memory,
        (∀ a, m.read a = if s.offset.toNat ≤ a ∧ a < s.offset.toNat + bs.length
          then bs[a - s.offset.toNat]? else s.buf.read a)
        ∧ (bs.length < s.remaining.toNat → exec (.recvBuf cap n) s = .next { s with
          rx := s.rx.drop bs.length, buf := m,
          offset := s.offset + BitVec.ofNat 32 bs.length,
          remaining := s.remaining - BitVec.ofNat 32 bs.length,
          deadline := s.now + s.cfg.tTimeout, progressCount := s.progressCount + 1,
          events := s.events
            ++ [.progress s.total (s.remaining - BitVec.ofNat 32 bs.length)] })
        ∧ (bs.length = s.remaining.toNat → exec (.recvBuf cap n) s = .next { s with
          rx := s.rx.drop bs.length, buf := m,
          offset := s.offset + BitVec.ofNat 32 bs.length, remaining := 0,
          deadline := s.now + s.cfg.tTimeout, progressCount := s.progressCount + 1,
          status := .ok, cause := .none, busy := false, phase := .idle,
          events := s.events ++ [.progress s.total 0] ++ [.done] }))

/-- R188: the start of RECV_SINK. -/
def Obligations.RecvSinkStarts : Prop :=
  ∀ (n : U32) (s : State), s.busy = false →
    (n = 0 → exec (.recvSink n) s = .next { s with
      op := 4, total := 0, remaining := 0, offset := 0, deadline := s.now + s.cfg.tTimeout,
      status := .ok, cause := .none, busy := false, phase := .idle,
      events := s.events ++ [.done] })
    ∧ (n ≠ 0 → exec (.recvSink n) s = .next { s with
      op := 4, total := n, remaining := n, offset := 0, deadline := s.now + s.cfg.tTimeout,
      status := .none, cause := .none, busy := true, phase := .sinkRun })

/-- R189, R190, R187: the bytes a read of RECV_SINK returns are appended in the same step. A short
append ends the operation: `OFFSET` counts the bytes the sink took and `REMAINING` those read. What
`RXC` holds beyond those bytes is unspecified (R37, log entry 22), and the statement leaves it open. -/
def Obligations.RecvSinkAppendsARead : Prop :=
  ∀ (n : U32) (s : State) (bs : List Byte) (m : Nat), s.busy = true → s.phase = .sinkRun →
    s.waiting = false → s.cancel = false →
    bs = s.rx.take (min (min s.remaining.toNat s.cfg.chunkRx) s.answers.read) → bs ≠ [] →
    m = min bs.length s.answers.sink →
    ∃ x : Memory, (∀ a < bs.length, x.read a = bs[a]?)
      ∧ (m < bs.length → exec (.recvSink n) s = .next { s with
        rx := s.rx.drop bs.length, rxc := x, sink := s.sink ++ bs.take m,
        offset := s.offset + BitVec.ofNat 32 m,
        remaining := s.remaining - BitVec.ofNat 32 bs.length,
        deadline := s.now + s.cfg.tTimeout, status := .sinkWrite, cause := .shortAccept,
        busy := false, phase := .idle, events := s.events ++ [.done] })
      ∧ (m = bs.length → bs.length < s.remaining.toNat → exec (.recvSink n) s = .next { s with
        rx := s.rx.drop bs.length, rxc := x, sink := s.sink ++ bs,
        offset := s.offset + BitVec.ofNat 32 bs.length,
        remaining := s.remaining - BitVec.ofNat 32 bs.length,
        deadline := s.now + s.cfg.tTimeout, progressCount := s.progressCount + 1,
        events := s.events ++ [.progress s.total (s.remaining - BitVec.ofNat 32 bs.length)] })
      ∧ (m = bs.length → bs.length = s.remaining.toNat → exec (.recvSink n) s = .next { s with
        rx := s.rx.drop bs.length, rxc := x, sink := s.sink ++ bs,
        offset := s.offset + BitVec.ofNat 32 bs.length, remaining := 0,
        deadline := s.now + s.cfg.tTimeout, progressCount := s.progressCount + 1,
        status := .ok, cause := .none, busy := false, phase := .idle,
        events := s.events ++ [.progress s.total 0] ++ [.done] })

/-- R182, R189, R226, R270: a transfer of no byte in a bulk operation ends it once the deadline is
reached and starts a poll wait before it; the deadline is not changed. -/
def Obligations.BulkZeroTransfer : Prop :=
  ∀ (i : Instr) (s : State), s.busy = true → s.waiting = false → s.cancel = false →
    ((s.phase = .bufRun ∧ (∃ c n, i = .recvBuf c n)
        ∧ s.rx.take (min s.remaining.toNat s.answers.read) = [])
      ∨ (s.phase = .sinkRun ∧ (∃ n, i = .recvSink n)
        ∧ s.rx.take (min (min s.remaining.toNat s.cfg.chunkRx) s.answers.read) = [])
      ∨ (s.phase = .sendWrite ∧ (∃ n, i = .send n) ∧ s.answers.write = 0
        ∧ ∀ j, s.txcPos.toNat ≤ j → j < s.txcLen.toNat → (s.txc.read j).isSome = true)) →
    (s.deadline ≤ s.now → exec i s = .next { s with
      status := .shortTransfer, cause := .deadline, busy := false, phase := .idle,
      events := s.events ++ [.done] })
    ∧ (s.now < s.deadline → exec i s = .next { s with
      wake := s.now + s.cfg.pPollBulk, waitKind := .poll, waiting := true })

/-- R182, R189, R222, R224, R255: a bulk operation that sees `CANCEL = 1` ends at once and moves no
byte; SEND looks at completion first. -/
def Obligations.BulkCancelled : Prop :=
  ∀ (i : Instr) (s : State), s.busy = true → s.waiting = false → s.cancel = true →
    ((s.phase = .bufRun ∧ ∃ c n, i = .recvBuf c n) ∨ (s.phase = .sinkRun ∧ ∃ n, i = .recvSink n)
      ∨ (s.phase = .sendFetch ∧ s.remaining ≠ 0 ∧ ∃ n, i = .send n)
      ∨ (s.phase = .sendWrite ∧ ∃ n, i = .send n)) →
    exec i s = .next { s with
      status := .shortTransfer, cause := .cancel, busy := false, phase := .idle,
      events := s.events ++ [.done] }

/-! ## The bulk transfer engine, send side -/

/-- R221: the start of SEND. -/
def Obligations.SendStarts : Prop :=
  ∀ (n : U32) (s : State), s.busy = false →
    (n = 0 → exec (.send n) s = .next { s with
      op := 5, total := 0, remaining := 0, offset := 0, txcLen := 0, txcPos := 0,
      deadline := s.now + s.cfg.tTimeout, status := .ok, cause := .none, busy := false,
      phase := .idle, events := s.events ++ [.done] })
    ∧ (n ≠ 0 → exec (.send n) s = .next { s with
      op := 5, total := n, remaining := n, offset := 0, txcLen := 0, txcPos := 0,
      deadline := s.now + s.cfg.tTimeout, status := .none, cause := .none, busy := true,
      phase := .sendFetch })

/-- R222, R223, R228: a fetch of SEND. Nothing left ends it with `OK`, also under `CANCEL`; a source
that gives fewer bytes than the chunk ends it with `SHORT_SOURCE` and none of them is sent; else the
chunk is held for writing and the deadline stays as it is. `TXC` beyond the chunk has no meaningful
value (R36, log entry 22), and the statement leaves it open. -/
def Obligations.SendFetchesAChunk : Prop :=
  ∀ (n : U32) (s : State) (k : Nat) (d : List Byte), s.busy = true → s.phase = .sendFetch →
    s.waiting = false → k = min s.cfg.chunkTx s.remaining.toNat →
    d = (s.source.drop s.sourcePos).take (min k s.answers.source) →
    (s.remaining = 0 → exec (.send n) s = .next { s with
      status := .ok, cause := .none, busy := false, phase := .idle,
      events := s.events ++ [.done] })
    ∧ (s.remaining ≠ 0 → s.cancel = false → d.length < k → exec (.send n) s = .next { s with
      sourcePos := s.sourcePos + d.length, status := .shortSource, cause := .none, busy := false,
      phase := .idle, events := s.events ++ [.done] })
    ∧ (s.remaining ≠ 0 → s.cancel = false → d.length = k →
      ∃ m : Memory, (∀ a < k, m.read a = d[a]?)
        ∧ exec (.send n) s = .next { s with
          sourcePos := s.sourcePos + k, txc := m, txcLen := BitVec.ofNat 32 k, txcPos := 0,
          phase := .sendWrite })

/-- R224, R225, R227, R229: a write of SEND that the transport accepts `m > 0` bytes of. They go out
in order; the rest of the chunk is written next with no wait; the last byte of the chunk reports
progress and starts the throttle wait. -/
def Obligations.SendWritesTheChunk : Prop :=
  ∀ (n : U32) (s : State) (chunk : List Byte) (m : Nat), s.busy = true → s.phase = .sendWrite →
    s.waiting = false → s.cancel = false →
    chunk.length = s.txcLen.toNat - s.txcPos.toNat →
    (∀ j < chunk.length, s.txc.read (s.txcPos.toNat + j) = chunk[j]?) →
    m = min chunk.length s.answers.write → 0 < m → m ≤ s.remaining.toNat →
    (m < chunk.length → exec (.send n) s = .next { s with
      tx := s.tx ++ chunk.take m, txcPos := s.txcPos + BitVec.ofNat 32 m,
      offset := s.offset + BitVec.ofNat 32 m, remaining := s.remaining - BitVec.ofNat 32 m,
      deadline := s.now + s.cfg.tTimeout })
    ∧ (m = chunk.length → exec (.send n) s = .next { s with
      tx := s.tx ++ chunk, txcPos := s.txcLen,
      offset := s.offset + BitVec.ofNat 32 m, remaining := s.remaining - BitVec.ofNat 32 m,
      deadline := s.now + s.cfg.tTimeout, progressCount := s.progressCount + 1,
      events := s.events ++ [.progress s.total (s.remaining - BitVec.ofNat 32 m)],
      phase := .sendFetch, wake := s.now + s.cfg.dThrottle, waitKind := .throttle,
      waiting := true })

/-! ## Reset, the host and the other agents -/

/-- R20, R49, R290: a reset, at any time, gives every register its reset value, clears the
written-marks of `BUF`, leaves the inputs, the transport, the sink and the source as they are, and
emits no event. That `TXC` and `RXC`, which R290 leaves unspecified, hold no value either is the
model's own (log entry 5). -/
def Obligations.ResetStepWritesTheRegisters : Prop :=
  ∀ (s : State) (rest : List Move), s.cfg.valid = true → s.agenda = .reset :: rest →
    ∃ t, step s = .next t
      ∧ t = { s with
        agenda := rest, busy := false, op := 0, phase := .idle, rxsm := .seekDle, lenAcc := 0,
        lenCount := 0, resultLen := 0, deadline := 0, waiting := false, wake := 0,
        waitKind := .poll, total := 0, remaining := 0, offset := 0, capacityR := 0, cmdR := 0,
        txc := t.txc, txcLen := 0, txcPos := 0, rxc := t.rxc, progressCount := 0,
        status := .none, cause := .none, buf := t.buf }
      ∧ ∀ a, t.buf.read a = none ∧ t.txc.read a = none ∧ t.rxc.read a = none

/-- R49, R279, R46: the host's read of `BUF` gives the bytes written, or faults at the first byte
without a written-mark. The fault for a byte past the end of `BUF` is the model's own name for it
(log entry 10). -/
def Obligations.HostReadsOnlyWrittenBytes : Prop :=
  ∀ (s : State) (i n : Nat) (rest : List Move), s.cfg.valid = true →
    s.agenda = .readBuf i n :: rest → 1 ≤ n →
    (s.cfg.bufSize < i + n →
      ∃ j, s.cfg.bufSize ≤ j ∧ j < i + n ∧ step s = .fault (.outsideBuf j))
    ∧ (i + n ≤ s.cfg.bufSize → (∀ k < n, (s.buf.read (i + k)).isSome = true) →
      ∃ bs : List Byte, bs.length = n ∧ (∀ k < n, bs[k]? = s.buf.read (i + k))
        ∧ step s = .next { s with
          agenda := rest, hostReads := s.hostReads ++ [.buffer i bs] })
    ∧ (i + n ≤ s.cfg.bufSize → ∀ k < n, s.buf.read (i + k) = none →
      (∀ j < k, (s.buf.read (i + j)).isSome = true) →
      step s = .fault (.unwrittenRead .buf (i + k)))

/-- R20, R46, R104 to R107: under a valid configuration a host's read of a register records its value,
in the spec's encodings, and changes nothing else; it is never refused. The value of each register is
given: the number it holds, or the number R20 and R104 to R107 give its name. -/
def Obligations.HostReadsTheEncodedRegisters : Prop :=
  (∀ (s : State) (r : Reg) (rest : List Move), s.cfg.valid = true → s.agenda = .readReg r :: rest →
    step s = .next { s with
      agenda := rest, hostReads := s.hostReads ++ [.register r (readReg r s)] })
  ∧ ∀ s : State,
    readReg .busy s = (if s.busy then 1 else 0)
    ∧ readReg .op s = s.op.toNat
    ∧ readReg .state s = (match s.phase with
      | .idle => 0 | .reqSend => 1 | .rxRun => 2 | .bufRun => 3 | .sinkRun => 4 | .sendFetch => 5
      | .sendWrite => 6)
    ∧ readReg .rxsm s = (match s.rxsm with
      | .seekDle => 0 | .seekStx => 1 | .readLength => 2 | .done => 3 | .timeout => 4
      | .cancelled => 5)
    ∧ readReg .lenAcc s = s.lenAcc.toNat
    ∧ readReg .lenCount s = s.lenCount.toNat
    ∧ readReg .resultLen s = s.resultLen.toNat
    ∧ readReg .deadline s = s.deadline
    ∧ readReg .waiting s = (if s.waiting then 1 else 0)
    ∧ readReg .wake s = s.wake
    ∧ readReg .waitKind s = (match s.waitKind with
      | .poll => 0 | .throttle => 1)
    ∧ readReg .total s = s.total.toNat
    ∧ readReg .remaining s = s.remaining.toNat
    ∧ readReg .offset s = s.offset.toNat
    ∧ readReg .capacityR s = s.capacityR.toNat
    ∧ readReg .cmdR s = s.cmdR.toNat
    ∧ readReg .txcLen s = s.txcLen.toNat
    ∧ readReg .txcPos s = s.txcPos.toNat
    ∧ readReg .progressCount s = s.progressCount.toNat
    ∧ readReg .status s = (match s.status with
      | .none => 0 | .ok => 1 | .noFrameMarker => 2 | .incompleteLength => 3 | .cancelled => 4
      | .capacity => 5 | .shortTransfer => 6 | .sinkWrite => 7 | .shortSource => 8
      | .transportWrite => 9 | .illegalOp => 10)
    ∧ readReg .cause s = (match s.cause with
      | .none => 0 | .deadline => 1 | .cancel => 2 | .badStx => 3 | .shortAccept => 4)

/-- R108: the host's program waits while an operation runs, stops at the first line whose `STATUS` is
not `OK`, and else starts the descriptor of its next line. That a line may run whatever
the status is, as R108 allows, is written as a flag of the line (log entry 14). -/
def Obligations.HostProgramStopsAtFailure : Prop :=
  ∀ (s : State) (line : Line) (lines : List Line) (rest : List Move), s.cfg.valid = true →
    s.agenda = .nextLine :: rest → s.program = line :: lines →
    (s.busy = true → step s = .next { s with agenda := rest })
    ∧ (s.busy = false → line.always = false → s.status ≠ .ok →
      step s = .next { s with agenda := rest, program := [] })
    ∧ (s.busy = false → (line.always = true ∨ s.status = .ok) →
      step s = step { s with
        agenda := .start :: rest, desc := lineDesc s.resultLen line.op, program := lines })

/-- R40: `now` never decreases, and only the time agent moves it. -/
def Obligations.TimeNeverDecreases : Prop :=
  ∀ s t : State, step s = .next t → s.now ≤ t.now
    ∧ (t.now ≠ s.now → ∃ n rest, s.agenda = .tick n :: rest ∧ t.now = s.now + n)

/-! ## What a block step leaves alone -/

/-- R41, R46, R64, R71, R72, R132: a step of the block writes no input and nothing of the host's; it
only appends to the transmit stream, the sink and the events; and outside REQUEST it only takes bytes
from the front of the receive buffer. -/
def Obligations.BlockLeavesTheRestAlone : Prop :=
  ∀ (s t : State) (a : Answers) (rest : List Move), s.agenda = .block a :: rest →
    step s = .next t →
    t.cfg = s.cfg ∧ t.now = s.now ∧ t.cancel = s.cancel ∧ t.desc = s.desc ∧ t.source = s.source
      ∧ t.hostReads = s.hostReads ∧ t.program = s.program ∧ t.agenda = rest
      ∧ (∃ xs, t.tx = s.tx ++ xs) ∧ (∃ xs, t.sink = s.sink ++ xs) ∧ (∃ xs, t.events = s.events ++ xs)
      ∧ s.sourcePos ≤ t.sourcePos
      ∧ (s.phase ≠ .reqSend → ∃ k, t.rx = s.rx.drop k)

/-- R69, R162: no step takes more bytes from the receive buffer than the table of request sizes
allows, so RECV_LEN takes none beyond the header and a bulk receive none beyond its length. -/
def Obligations.ReadsTakeNoMoreThanAsked : Prop :=
  ∀ (s t : State) (a : Answers) (rest : List Move), s.agenda = .block a :: rest →
    step s = .next t → s.phase ≠ .reqSend →
    ∃ k, t.rx = s.rx.drop k ∧
      k ≤ (match s.phase with
        | .rxRun => if s.rxsm = .readLength then 4 - s.lenCount.toNat else 1
        | .bufRun => s.remaining.toNat
        | .sinkRun => min s.remaining.toNat s.cfg.chunkRx
        | _ => 0)

/-- R61, R62: no write to `BUF` goes to an index at or above `CAPACITY_R`, and no operation but
RECV_BUF writes `BUF`; this holds in every state, whether a run reaches it or not. -/
def Obligations.BufWritesStayBelowCapacity : Prop :=
  ∀ (s t : State) (a : Answers) (rest : List Move), s.agenda = .block a :: rest →
    step s = .next t →
    (∀ i, s.capacityR.toNat ≤ i → t.buf.read i = s.buf.read i)
      ∧ (s.phase ≠ .bufRun → t.buf = s.buf)

/-- R24, R27: a block step outside RECV_LEN writes neither `RXSM` nor `RESULT_LEN`, and RECV_LEN
writes `RESULT_LEN` only when it ends with `OK`. -/
def Obligations.ResultLenOnlyOnSuccess : Prop :=
  ∀ (s t : State) (a : Answers) (rest : List Move), s.agenda = .block a :: rest →
    step s = .next t →
    (s.phase ≠ .rxRun → t.rxsm = s.rxsm ∧ t.resultLen = s.resultLen)
      ∧ (t.resultLen ≠ s.resultLen →
        t.status = .ok ∧ t.rxsm = .done ∧ t.resultLen = t.lenAcc ∧ t.busy = false)

/-- R267, R262: DONE and `BUSY` agree: a block step of a running operation emits DONE exactly when it
ends the operation, and then exactly once. -/
def Obligations.DoneExactlyWhenBusyFalls : Prop :=
  ∀ (s t : State) (a : Answers) (rest : List Move), s.agenda = .block a :: rest →
    s.busy = true → step s = .next t →
    t.events.count .done = s.events.count .done + (if t.busy then 0 else 1)

/-- R80: a change to `DESC` while an operation runs has no effect on the block's step. -/
def Obligations.DescriptorNotReadWhileRunning : Prop :=
  ∀ (s : State) (d : Desc) (a : Answers) (rest : List Move), s.agenda = .block a :: rest →
    step { s with desc := d } = mapNext (fun t => { t with desc := d }) (step s)

/-- R38: no rule of the control flow reads `PROGRESS_COUNT`: another value of it changes nothing of a
block step but its own count. -/
def Obligations.ProgressCountNotRead : Prop :=
  ∀ (s : State) (c : U32) (a : Answers) (rest : List Move), s.agenda = .block a :: rest →
    step { s with progressCount := c }
      = mapNext (fun t => { t with progressCount := t.progressCount + (c - s.progressCount) })
          (step s)

/-! ## The invariant -/

/-- The invariant holds right after reset (R20, R290). The configuration and the environment of
`State.reset` are the model's choice (log entries 1 and 2). -/
def Obligations.ResetSatisfiesInv : Prop := Inv State.reset

/-- R20 to R36, R250: every step of every agent, a reset among them, keeps the invariant of the
machine, and no step changes the configuration. -/
def Obligations.StepKeepsInv : Prop :=
  ∀ s t : State, Inv s → step s = .next t → Inv t ∧ t.cfg = s.cfg

/-- R49, R265, R279: under the invariant, a step stops only where the host breaks its contract or the
configuration is refused; no step of the block ever stops. -/
def Obligations.OnlyTheHostCanFault : Prop :=
  ∀ s : State, Inv s → s.cfg.valid = true → hostKeepsContract s = true → ∃ t, step s = .next t

/-- R33, R250, R255: what a step of a bulk operation leaves in the counters. They add up unless the
sink fell short, a short transfer has bytes left, and success has moved them all. -/
def Obligations.BulkCountersAddUp : Prop :=
  ∀ (s t : State) (a : Answers) (rest : List Move), Inv s → s.agenda = .block a :: rest →
    isBulk s.phase = true → step s = .next t →
    t.total = s.total
      ∧ (t.status ≠ .sinkWrite → t.offset.toNat + t.remaining.toNat = t.total.toNat)
      ∧ (t.status = .sinkWrite → t.offset.toNat + t.remaining.toNat < t.total.toNat)
      ∧ (t.status = .shortTransfer → t.offset.toNat < t.total.toNat)
      ∧ (t.status = .ok → t.offset = t.total)

/-! ## Whole operations -/

/-- R136: while RECV_LEN runs with `CANCEL = 0` over noise without DLE, a response header and what
follows it, some of it still to arrive (`later`), and no zero-byte read is late, every block step
either keeps the search on that header or ends with its length and exactly the header consumed. -/
def Obligations.SearchKeepsTheHeader : Prop :=
  ∀ (s t : State) (a : Answers) (rest : List Move) (noise tail later : List Byte) (n : U32),
    Inv s → s.cfg.valid = true → s.agenda = .block a :: rest → s.phase = .rxRun →
    s.cancel = false → s.now < s.deadline → (0x10 : Byte) ∉ noise →
    headerStream s ++ later = noise ++ [0x10, 0x02] ++ be32enc n ++ tail →
    step s = .next t →
    (t.phase = .rxRun ∧ ∃ noise', (0x10 : Byte) ∉ noise' ∧
        headerStream t ++ later = noise' ++ [0x10, 0x02] ++ be32enc n ++ tail)
      ∨ (t.busy = false ∧ t.status = .ok ∧ t.cause = .none ∧ t.rxsm = .done ∧ t.resultLen = n
        ∧ t.rx ++ later = tail)

/-- R136, R162: with reads that each return at least one byte, a RECV_LEN that has just started ends
with `OK` and the header's length within `noise + 6` block steps, and consumes exactly those bytes. -/
def Obligations.RecvLenFindsTheHeader : Prop :=
  ∀ (s : State) (noise tail : List Byte) (n : U32) (as : List Answers), s.cfg.valid = true →
    s.busy = true → s.phase = .rxRun → s.waiting = false → s.cancel = false → s.rxsm = .seekDle →
    (0x10 : Byte) ∉ noise → s.rx = noise ++ [0x10, 0x02] ++ be32enc n ++ tail →
    (∀ x ∈ as, 1 ≤ x.read) → noise.length + 6 ≤ as.length → s.agenda = as.map .block →
    ∃ t, runs as.length s = .next t ∧ t.busy = false ∧ t.status = .ok ∧ t.cause = .none
      ∧ t.rxsm = .done ∧ t.resultLen = n ∧ t.rx = tail

/-- R193 (a), R184: a RECV_BUF whose payload is there, delivered in arbitrarily small increments, ends
with `OK` and the payload in `BUF` from where it stood, every other byte of `BUF` unchanged. -/
def Obligations.RecvBufDeliversThePayload : Prop :=
  ∀ (s : State) (payload tail : List Byte) (as : List Answers), Inv s → s.cfg.valid = true →
    s.phase = .bufRun → s.waiting = false → s.cancel = false →
    payload.length = s.remaining.toNat → s.rx = payload ++ tail →
    (∀ x ∈ as, 1 ≤ x.read) → s.remaining.toNat ≤ as.length → s.agenda = as.map .block →
    ∃ t, runs as.length s = .next t ∧ t.busy = false ∧ t.status = .ok ∧ t.cause = .none
      ∧ t.offset = t.total ∧ t.rx = tail
      ∧ ∀ i, t.buf.read i = if s.offset.toNat ≤ i ∧ i < s.total.toNat
          then payload[i - s.offset.toNat]? else s.buf.read i

/-- R67, R188, R189: a RECV_SINK whose payload is there, over a sink that takes whole chunks, ends
with `OK` and the payload appended to the sink in order. -/
def Obligations.RecvSinkDeliversThePayload : Prop :=
  ∀ (s : State) (payload tail : List Byte) (as : List Answers), Inv s → s.cfg.valid = true →
    s.phase = .sinkRun → s.waiting = false → s.cancel = false →
    payload.length = s.remaining.toNat → s.rx = payload ++ tail →
    (∀ x ∈ as, 1 ≤ x.read ∧ s.cfg.chunkRx ≤ x.sink) → s.remaining.toNat ≤ as.length →
    s.agenda = as.map .block →
    ∃ t, runs as.length s = .next t ∧ t.busy = false ∧ t.status = .ok ∧ t.cause = .none
      ∧ t.offset = t.total ∧ t.rx = tail ∧ t.sink = s.sink ++ payload

/-- R67, R225: SEND transmits the bytes of the source in order, and sends none twice and skips none:
the transmit stream always holds exactly the first `OFFSET` bytes of the source, and all `TOTAL` of
them when SEND ends with `OK` (R228). -/
def Obligations.SendStreamsTheSource : Prop :=
  ∀ (s t : State) (a : Answers) (rest : List Move) (base : List Byte) (origin : Nat),
    Inv s → s.agenda = .block a :: rest → SendStream base origin s → step s = .next t →
    t.tx = base ++ (s.source.drop origin).take t.offset.toNat
      ∧ (t.busy = true → SendStream base origin t)
      ∧ (t.status = .ok → t.tx = base ++ (s.source.drop origin).take s.total.toNat)

/-- R271, R303: an operation whose transport moves no byte ends with its deadline result, not before
the deadline and less than one poll interval after it, when each of its steps is taken as soon as it
is enabled. -/
def Obligations.StallEndsAtTheDeadline : Prop :=
  ∀ (s : State) (poll n : Nat), Inv s → s.cfg.valid = true →
    (s.phase = .rxRun ∨ s.phase = .bufRun ∨ s.phase = .sinkRun ∨ s.phase = .sendWrite) →
    s.waiting = false → s.cancel = false →
    poll = (if s.phase = .rxRun then s.cfg.pPollRx else s.cfg.pPollBulk) →
    n = (s.deadline - s.now + poll - 1) / poll → s.agenda = stallMoves poll n →
    ∃ t, runs (3 * n + 1) s = .next t ∧ t.busy = false ∧ t.cause = .deadline
      ∧ s.deadline ≤ t.now ∧ t.now < max s.now s.deadline + poll
      ∧ t.rx = s.rx ∧ t.tx = s.tx ∧ t.sink = s.sink

/-- R304, R266: a running operation that samples `CANCEL` and is not waiting ends at its next block
step once `CANCEL = 1`, with the cause CANCEL, and moves no byte; SEND with nothing left has completed. -/
def Obligations.CancellationEndsTheOperation : Prop :=
  ∀ (s : State) (a : Answers) (rest : List Move), s.cfg.valid = true →
    s.agenda = .block a :: rest → s.busy = true → isIterating s.phase = true →
    s.waiting = false → s.cancel = true →
    ∃ t, step s = .next t ∧ t.busy = false
      ∧ (s.phase = .rxRun → t.status = .cancelled ∧ t.cause = .cancel)
      ∧ (s.phase ≠ .rxRun → (s.phase ≠ .sendFetch ∨ s.remaining ≠ 0) →
        t.status = .shortTransfer ∧ t.cause = .cancel)
      ∧ (s.phase = .sendFetch → s.remaining = 0 → t.status = .ok ∧ t.cause = .none)
      ∧ t.rx = s.rx ∧ t.tx = s.tx ∧ t.sink = s.sink ∧ t.buf = s.buf ∧ t.sourcePos = s.sourcePos
      ∧ t.offset = s.offset ∧ t.remaining = s.remaining ∧ t.deadline = s.deadline
end

