-- ==== Sys2Proof/Laws/Memory.lean ====
section
/-! SUPPORT. The laws of the byte memories: a read after a write, and that every memory operation
keeps the canonical form and the bound on the indices. -/

namespace Sys2Proof.Machine

/-! ## Reading what was written -/

@[simp] theorem Memory.read_empty (a : Nat) : Memory.empty.read a = none := rfl

theorem cellAt_setCell (a b : Nat) (v : Byte) (cs : List Host.Cell) :
    cellAt b (setCell a v cs) = if b = a then some v else cellAt b cs := by
  induction cs with
  | nil => rfl
  | cons c rest ih =>
    obtain ⟨k, w⟩ := c
    unfold setCell
    split
    · simp only [cellAt]
    · split
      · subst_vars; simp only [cellAt]; split <;> rfl
      · simp only [cellAt, ih]; split <;> split <;> simp_all

@[simp] theorem Memory.read_write_self (m : Memory) (a : Nat) (v : Byte) :
    (m.write a v).read a = some v := by
  simp [Memory.read, Memory.write, cellAt_setCell]

theorem Memory.read_write_other (m : Memory) {a b : Nat} (v : Byte) (h : b ≠ a) :
    (m.write a v).read b = m.read b := by
  simp [Memory.read, Memory.write, cellAt_setCell, h]

theorem Memory.read_write (m : Memory) (a b : Nat) (v : Byte) :
    (m.write a v).read b = if b = a then some v else m.read b := by
  simp [Memory.read, Memory.write, cellAt_setCell]

/-- A read after a write of the bytes `bs` from index `a`: the byte written, or what was there. -/
theorem Memory.read_writeBytes (bs : List Byte) (m : Memory) (a b : Nat) :
    (m.writeBytes a bs).read b
      = if a ≤ b ∧ b < a + bs.length then bs[b - a]? else m.read b := by
  induction bs generalizing m a with
  | nil => simp [Memory.writeBytes]
  | cons v vs ih =>
    simp only [Memory.writeBytes, ih, Memory.read_write, List.length_cons]
    by_cases h1 : b = a
    · subst h1; simp
    · by_cases h2 : a + 1 ≤ b ∧ b < a + 1 + vs.length
      · have h3 : a ≤ b ∧ b < a + (vs.length + 1) := by omega
        have h4 : b - a = (b - (a + 1)) + 1 := by omega
        rw [if_pos h2, if_pos h3, h4, List.getElem?_cons_succ]
      · have h3 : ¬ (a ≤ b ∧ b < a + (vs.length + 1)) := by omega
        rw [if_neg h2, if_neg h3, if_neg h1]

@[simp] theorem Memory.read_ofBytes (bs : List Byte) (a : Nat) : (Memory.ofBytes bs).read a = bs[a]? := by
  by_cases h : a < bs.length <;> simp [Memory.ofBytes, Memory.read_writeBytes, h]

/-- A read of `n` bytes that succeeds gives the bytes at the indices from `a` on. -/
theorem Memory.readBytes_ok {m : Memory} {a n : Nat} {bs : List Byte}
    (h : m.readBytes a n = .ok bs) : bs.length = n ∧ ∀ k < n, m.read (a + k) = bs[k]? := by
  induction n generalizing a bs with
  | zero => cases h; simp
  | succ n ih =>
    unfold Memory.readBytes at h
    split at h
    · cases h
    · rename_i b hb
      split at h
      · rename_i cs hcs
        cases h
        obtain ⟨h1, h2⟩ := ih hcs
        refine ⟨by simp [h1], fun k hk => ?_⟩
        cases k with
        | zero => simpa using hb
        | succ k =>
          have h3 := h2 k (by omega)
          rw [show a + (k + 1) = a + 1 + k by omega, h3, List.getElem?_cons_succ]
      · cases h

/-- Where every byte is written, a read of them gives exactly those bytes. -/
theorem Memory.readBytes_of_written {m : Memory} {a n : Nat} {bs : List Byte} (hn : bs.length = n)
    (h : ∀ k < n, m.read (a + k) = bs[k]?) : m.readBytes a n = .ok bs := by
  induction n generalizing a bs with
  | zero => rw [List.length_eq_zero_iff.mp hn]; rfl
  | succ n ih =>
    cases bs with
    | nil => simp at hn
    | cons b bs =>
      have h0 : m.read a = some b := by simpa using h 0 (by omega)
      have hr : m.readBytes (a + 1) n = .ok bs := by
        refine ih (by simpa using hn) (fun k hk => ?_)
        have := h (k + 1) (by omega)
        rwa [show a + (k + 1) = a + 1 + k by omega, List.getElem?_cons_succ] at this
      simp [Memory.readBytes, h0, hr]

/-- A read of `n` bytes that fails names the first index that has no written-mark. -/
theorem Memory.readBytes_error {m : Memory} {a n i : Nat} (h : m.readBytes a n = .error i) :
    a ≤ i ∧ i < a + n ∧ m.read i = none ∧ ∀ j, a ≤ j → j < i → (m.read j).isSome = true := by
  induction n generalizing a with
  | zero => cases h
  | succ n ih =>
    unfold Memory.readBytes at h
    split at h
    · rename_i hb
      cases h
      exact ⟨by omega, by omega, hb, fun j h1 h2 => by omega⟩
    · rename_i b hb
      split at h
      · cases h
      · rename_i k hk
        cases h
        obtain ⟨h1, h2, h3, h4⟩ := ih hk
        refine ⟨by omega, by omega, h3, fun j h5 h6 => ?_⟩
        rcases Nat.eq_or_lt_of_le h5 with h7 | h7
        · subst h7; simp [hb]
        · exact h4 j (by omega) h6

/-! ## The canonical form -/

@[simp] theorem Memory.empty_wf : Memory.empty.wf = true := rfl

theorem risingFrom_mono {lo lo' : Nat} {cs : List Host.Cell} (h : lo' ≤ lo)
    (hc : Memory.risingFrom lo cs = true) : Memory.risingFrom lo' cs = true := by
  cases cs with
  | nil => rfl
  | cons c rest =>
    obtain ⟨k, w⟩ := c
    simp only [Memory.risingFrom, Bool.and_eq_true, decide_eq_true_eq] at hc ⊢
    exact ⟨by omega, hc.2⟩

theorem setCell_rising {lo a : Nat} (v : Byte) {cs : List Host.Cell} (ha : lo ≤ a)
    (hc : Memory.risingFrom lo cs = true) : Memory.risingFrom lo (setCell a v cs) = true := by
  induction cs generalizing lo with
  | nil => simp [setCell, Memory.risingFrom, ha]
  | cons c rest ih =>
    obtain ⟨k, w⟩ := c
    simp only [Memory.risingFrom, Bool.and_eq_true, decide_eq_true_eq] at hc
    unfold setCell
    split
    · rename_i h
      simp only [Memory.risingFrom, Bool.and_eq_true, decide_eq_true_eq]
      exact ⟨ha, by omega, hc.2⟩
    · split
      · rename_i h
        subst h
        simp only [Memory.risingFrom, Bool.and_eq_true, decide_eq_true_eq]
        exact ⟨ha, hc.2⟩
      · simp only [Memory.risingFrom, Bool.and_eq_true, decide_eq_true_eq]
        exact ⟨hc.1, ih (by omega) hc.2⟩

theorem Memory.write_wf {m : Memory} (a : Nat) (v : Byte) (h : m.wf = true) :
    (m.write a v).wf = true :=
  setCell_rising v (Nat.zero_le a) h

theorem Memory.writeBytes_wf (bs : List Byte) {m : Memory} (a : Nat) (h : m.wf = true) :
    (m.writeBytes a bs).wf = true := by
  induction bs generalizing m a with
  | nil => exact h
  | cons b bs ih => exact ih (a + 1) (Memory.write_wf a b h)

theorem Memory.ofBytes_wf (bs : List Byte) : (Memory.ofBytes bs).wf = true :=
  Memory.writeBytes_wf bs 0 Memory.empty_wf

/-! ## The bound on the indices -/

@[simp] theorem Memory.empty_within (n : Nat) : Memory.empty.within n = true := rfl

theorem Memory.write_within {m : Memory} {n a : Nat} (v : Byte) (ha : a < n)
    (h : m.within n = true) : (m.write a v).within n = true := by
  obtain ⟨cs⟩ := m
  simp only [Memory.within, Memory.write] at *
  induction cs with
  | nil => simp [setCell, ha]
  | cons c rest ih =>
    obtain ⟨k, w⟩ := c
    simp only [List.all_cons, Bool.and_eq_true, decide_eq_true_eq] at h
    unfold setCell
    split
    · simp [ha, h.1, h.2]
    · split
      · simp [ha, h.2]
      · simp [h.1, ih h.2]

theorem Memory.writeBytes_within (bs : List Byte) {m : Memory} {n a : Nat}
    (ha : a + bs.length ≤ n) (h : m.within n = true) : (m.writeBytes a bs).within n = true := by
  induction bs generalizing m a with
  | nil => exact h
  | cons b bs ih =>
    simp only [List.length_cons] at ha
    exact ih (by omega) (Memory.write_within b (by omega) h)

theorem Memory.ofBytes_within {bs : List Byte} {n : Nat} (h : bs.length ≤ n) :
    (Memory.ofBytes bs).within n = true :=
  Memory.writeBytes_within bs (by omega) (Memory.empty_within n)

/-- Two memories in canonical form that read the same at every index are equal: equal memories are
equal data. -/
theorem Memory.ext_of_wf {m m' : Memory} (h : m.wf = true) (h' : m'.wf = true)
    (hr : ∀ a, m.read a = m'.read a) : m = m' := by
  have below : ∀ (cs : List Host.Cell) (lo b : Nat), Memory.risingFrom lo cs = true → b < lo →
      cellAt b cs = none := by
    intro cs
    induction cs with
    | nil => intros; rfl
    | cons c rest ih =>
      obtain ⟨k, w⟩ := c
      intro lo b hc hb
      simp only [Memory.risingFrom, Bool.and_eq_true, decide_eq_true_eq] at hc
      have : b ≠ k := by omega
      simp only [cellAt, this, if_false]
      exact ih (k + 1) b hc.2 (by omega)
  have main : ∀ (cs cs' : List Host.Cell) (lo : Nat), Memory.risingFrom lo cs = true →
      Memory.risingFrom lo cs' = true → (∀ a, cellAt a cs = cellAt a cs') → cs = cs' := by
    intro cs
    induction cs with
    | nil =>
      intro cs' lo _ _ hq
      cases cs' with
      | nil => rfl
      | cons c rest => obtain ⟨k, w⟩ := c; simpa [cellAt] using hq k
    | cons c rest ih =>
      obtain ⟨k, w⟩ := c
      intro cs' lo hc hc' hq
      cases cs' with
      | nil => simpa [cellAt] using hq k
      | cons c' rest' =>
        obtain ⟨k', w'⟩ := c'
        simp only [Memory.risingFrom, Bool.and_eq_true, decide_eq_true_eq] at hc hc'
        have hk : k = k' := by
          rcases Nat.lt_trichotomy k k' with hlt | heq | hgt
          · have := hq k
            have h1 : k ≠ k' := by omega
            simp [cellAt, h1, below rest' (k' + 1) k hc'.2 (by omega)] at this
          · exact heq
          · have := hq k'
            have h1 : k' ≠ k := by omega
            simp [cellAt, h1, below rest (k + 1) k' hc.2 (by omega)] at this
        subst hk
        have hw : w = w' := by simpa [cellAt] using hq k
        subst hw
        have hrest : rest = rest' := by
          refine ih rest' (k + 1) hc.2 hc'.2 (fun a => ?_)
          by_cases ha : a = k
          · subst ha
            rw [below rest (a + 1) a hc.2 (by omega), below rest' (a + 1) a hc'.2 (by omega)]
          · simpa [cellAt, ha] using hq a
        rw [hrest]
  obtain ⟨cs⟩ := m
  obtain ⟨cs'⟩ := m'
  exact congrArg Memory.mk (main cs cs' 0 h h' hr)

end Sys2Proof.Machine
end

