-- ==== Sys2Proof/Laws/State.lean ====
section
/-! SUPPORT. The small lemmas of the state updates in Machine/Ops.lean: what each operation writes and
that it leaves every other field as it is. One lemma per field and operation. -/

namespace Sys2Proof.Machine

/-! ## `finish` -/

@[simp] theorem finish_cfg (code : Status) (cause : Cause) (s : State) :
    (finish code cause s).cfg = s.cfg := rfl
@[simp] theorem finish_busy (code : Status) (cause : Cause) (s : State) :
    (finish code cause s).busy = false := rfl
@[simp] theorem finish_op (code : Status) (cause : Cause) (s : State) :
    (finish code cause s).op = s.op := rfl
@[simp] theorem finish_phase (code : Status) (cause : Cause) (s : State) :
    (finish code cause s).phase = .idle := rfl
@[simp] theorem finish_rxsm (code : Status) (cause : Cause) (s : State) :
    (finish code cause s).rxsm = s.rxsm := rfl
@[simp] theorem finish_lenAcc (code : Status) (cause : Cause) (s : State) :
    (finish code cause s).lenAcc = s.lenAcc := rfl
@[simp] theorem finish_lenCount (code : Status) (cause : Cause) (s : State) :
    (finish code cause s).lenCount = s.lenCount := rfl
@[simp] theorem finish_resultLen (code : Status) (cause : Cause) (s : State) :
    (finish code cause s).resultLen = s.resultLen := rfl
@[simp] theorem finish_deadline (code : Status) (cause : Cause) (s : State) :
    (finish code cause s).deadline = s.deadline := rfl
@[simp] theorem finish_waiting (code : Status) (cause : Cause) (s : State) :
    (finish code cause s).waiting = s.waiting := rfl
@[simp] theorem finish_wake (code : Status) (cause : Cause) (s : State) :
    (finish code cause s).wake = s.wake := rfl
@[simp] theorem finish_waitKind (code : Status) (cause : Cause) (s : State) :
    (finish code cause s).waitKind = s.waitKind := rfl
@[simp] theorem finish_total (code : Status) (cause : Cause) (s : State) :
    (finish code cause s).total = s.total := rfl
@[simp] theorem finish_remaining (code : Status) (cause : Cause) (s : State) :
    (finish code cause s).remaining = s.remaining := rfl
@[simp] theorem finish_offset (code : Status) (cause : Cause) (s : State) :
    (finish code cause s).offset = s.offset := rfl
@[simp] theorem finish_capacityR (code : Status) (cause : Cause) (s : State) :
    (finish code cause s).capacityR = s.capacityR := rfl
@[simp] theorem finish_cmdR (code : Status) (cause : Cause) (s : State) :
    (finish code cause s).cmdR = s.cmdR := rfl
@[simp] theorem finish_txc (code : Status) (cause : Cause) (s : State) :
    (finish code cause s).txc = s.txc := rfl
@[simp] theorem finish_txcLen (code : Status) (cause : Cause) (s : State) :
    (finish code cause s).txcLen = s.txcLen := rfl
@[simp] theorem finish_txcPos (code : Status) (cause : Cause) (s : State) :
    (finish code cause s).txcPos = s.txcPos := rfl
@[simp] theorem finish_rxc (code : Status) (cause : Cause) (s : State) :
    (finish code cause s).rxc = s.rxc := rfl
@[simp] theorem finish_progressCount (code : Status) (cause : Cause) (s : State) :
    (finish code cause s).progressCount = s.progressCount := rfl
@[simp] theorem finish_status (code : Status) (cause : Cause) (s : State) :
    (finish code cause s).status = code := rfl
@[simp] theorem finish_cause (code : Status) (cause : Cause) (s : State) :
    (finish code cause s).cause = cause := rfl
@[simp] theorem finish_buf (code : Status) (cause : Cause) (s : State) :
    (finish code cause s).buf = s.buf := rfl
@[simp] theorem finish_now (code : Status) (cause : Cause) (s : State) :
    (finish code cause s).now = s.now := rfl
@[simp] theorem finish_cancel (code : Status) (cause : Cause) (s : State) :
    (finish code cause s).cancel = s.cancel := rfl
@[simp] theorem finish_desc (code : Status) (cause : Cause) (s : State) :
    (finish code cause s).desc = s.desc := rfl
@[simp] theorem finish_rx (code : Status) (cause : Cause) (s : State) :
    (finish code cause s).rx = s.rx := rfl
@[simp] theorem finish_tx (code : Status) (cause : Cause) (s : State) :
    (finish code cause s).tx = s.tx := rfl
@[simp] theorem finish_sink (code : Status) (cause : Cause) (s : State) :
    (finish code cause s).sink = s.sink := rfl
@[simp] theorem finish_source (code : Status) (cause : Cause) (s : State) :
    (finish code cause s).source = s.source := rfl
@[simp] theorem finish_sourcePos (code : Status) (cause : Cause) (s : State) :
    (finish code cause s).sourcePos = s.sourcePos := rfl
@[simp] theorem finish_events (code : Status) (cause : Cause) (s : State) :
    (finish code cause s).events = s.events ++ [.done] := rfl
@[simp] theorem finish_hostReads (code : Status) (cause : Cause) (s : State) :
    (finish code cause s).hostReads = s.hostReads := rfl
@[simp] theorem finish_program (code : Status) (cause : Cause) (s : State) :
    (finish code cause s).program = s.program := rfl
@[simp] theorem finish_agenda (code : Status) (cause : Cause) (s : State) :
    (finish code cause s).agenda = s.agenda := rfl
@[simp] theorem finish_answers (code : Status) (cause : Cause) (s : State) :
    (finish code cause s).answers = s.answers := rfl

/-! ## `beginOp` -/

@[simp] theorem beginOp_cfg (opcode : BitVec 3) (s : State) :
    (beginOp opcode s).cfg = s.cfg := rfl
@[simp] theorem beginOp_busy (opcode : BitVec 3) (s : State) :
    (beginOp opcode s).busy = true := rfl
@[simp] theorem beginOp_op (opcode : BitVec 3) (s : State) :
    (beginOp opcode s).op = opcode := rfl
@[simp] theorem beginOp_phase (opcode : BitVec 3) (s : State) :
    (beginOp opcode s).phase = s.phase := rfl
@[simp] theorem beginOp_rxsm (opcode : BitVec 3) (s : State) :
    (beginOp opcode s).rxsm = s.rxsm := rfl
@[simp] theorem beginOp_lenAcc (opcode : BitVec 3) (s : State) :
    (beginOp opcode s).lenAcc = s.lenAcc := rfl
@[simp] theorem beginOp_lenCount (opcode : BitVec 3) (s : State) :
    (beginOp opcode s).lenCount = s.lenCount := rfl
@[simp] theorem beginOp_resultLen (opcode : BitVec 3) (s : State) :
    (beginOp opcode s).resultLen = s.resultLen := rfl
@[simp] theorem beginOp_deadline (opcode : BitVec 3) (s : State) :
    (beginOp opcode s).deadline = s.deadline := rfl
@[simp] theorem beginOp_waiting (opcode : BitVec 3) (s : State) :
    (beginOp opcode s).waiting = s.waiting := rfl
@[simp] theorem beginOp_wake (opcode : BitVec 3) (s : State) :
    (beginOp opcode s).wake = s.wake := rfl
@[simp] theorem beginOp_waitKind (opcode : BitVec 3) (s : State) :
    (beginOp opcode s).waitKind = s.waitKind := rfl
@[simp] theorem beginOp_total (opcode : BitVec 3) (s : State) :
    (beginOp opcode s).total = s.total := rfl
@[simp] theorem beginOp_remaining (opcode : BitVec 3) (s : State) :
    (beginOp opcode s).remaining = s.remaining := rfl
@[simp] theorem beginOp_offset (opcode : BitVec 3) (s : State) :
    (beginOp opcode s).offset = s.offset := rfl
@[simp] theorem beginOp_capacityR (opcode : BitVec 3) (s : State) :
    (beginOp opcode s).capacityR = s.capacityR := rfl
@[simp] theorem beginOp_cmdR (opcode : BitVec 3) (s : State) :
    (beginOp opcode s).cmdR = s.cmdR := rfl
@[simp] theorem beginOp_txc (opcode : BitVec 3) (s : State) :
    (beginOp opcode s).txc = s.txc := rfl
@[simp] theorem beginOp_txcLen (opcode : BitVec 3) (s : State) :
    (beginOp opcode s).txcLen = s.txcLen := rfl
@[simp] theorem beginOp_txcPos (opcode : BitVec 3) (s : State) :
    (beginOp opcode s).txcPos = s.txcPos := rfl
@[simp] theorem beginOp_rxc (opcode : BitVec 3) (s : State) :
    (beginOp opcode s).rxc = s.rxc := rfl
@[simp] theorem beginOp_progressCount (opcode : BitVec 3) (s : State) :
    (beginOp opcode s).progressCount = s.progressCount := rfl
@[simp] theorem beginOp_status (opcode : BitVec 3) (s : State) :
    (beginOp opcode s).status = .none := rfl
@[simp] theorem beginOp_cause (opcode : BitVec 3) (s : State) :
    (beginOp opcode s).cause = .none := rfl
@[simp] theorem beginOp_buf (opcode : BitVec 3) (s : State) :
    (beginOp opcode s).buf = s.buf := rfl
@[simp] theorem beginOp_now (opcode : BitVec 3) (s : State) :
    (beginOp opcode s).now = s.now := rfl
@[simp] theorem beginOp_cancel (opcode : BitVec 3) (s : State) :
    (beginOp opcode s).cancel = s.cancel := rfl
@[simp] theorem beginOp_desc (opcode : BitVec 3) (s : State) :
    (beginOp opcode s).desc = s.desc := rfl
@[simp] theorem beginOp_rx (opcode : BitVec 3) (s : State) :
    (beginOp opcode s).rx = s.rx := rfl
@[simp] theorem beginOp_tx (opcode : BitVec 3) (s : State) :
    (beginOp opcode s).tx = s.tx := rfl
@[simp] theorem beginOp_sink (opcode : BitVec 3) (s : State) :
    (beginOp opcode s).sink = s.sink := rfl
@[simp] theorem beginOp_source (opcode : BitVec 3) (s : State) :
    (beginOp opcode s).source = s.source := rfl
@[simp] theorem beginOp_sourcePos (opcode : BitVec 3) (s : State) :
    (beginOp opcode s).sourcePos = s.sourcePos := rfl
@[simp] theorem beginOp_events (opcode : BitVec 3) (s : State) :
    (beginOp opcode s).events = s.events := rfl
@[simp] theorem beginOp_hostReads (opcode : BitVec 3) (s : State) :
    (beginOp opcode s).hostReads = s.hostReads := rfl
@[simp] theorem beginOp_program (opcode : BitVec 3) (s : State) :
    (beginOp opcode s).program = s.program := rfl
@[simp] theorem beginOp_agenda (opcode : BitVec 3) (s : State) :
    (beginOp opcode s).agenda = s.agenda := rfl
@[simp] theorem beginOp_answers (opcode : BitVec 3) (s : State) :
    (beginOp opcode s).answers = s.answers := rfl

/-! ## `startWait` -/

@[simp] theorem startWait_cfg (n : Nat) (kind : WaitKind) (s : State) :
    (startWait n kind s).cfg = s.cfg := rfl
@[simp] theorem startWait_busy (n : Nat) (kind : WaitKind) (s : State) :
    (startWait n kind s).busy = s.busy := rfl
@[simp] theorem startWait_op (n : Nat) (kind : WaitKind) (s : State) :
    (startWait n kind s).op = s.op := rfl
@[simp] theorem startWait_phase (n : Nat) (kind : WaitKind) (s : State) :
    (startWait n kind s).phase = s.phase := rfl
@[simp] theorem startWait_rxsm (n : Nat) (kind : WaitKind) (s : State) :
    (startWait n kind s).rxsm = s.rxsm := rfl
@[simp] theorem startWait_lenAcc (n : Nat) (kind : WaitKind) (s : State) :
    (startWait n kind s).lenAcc = s.lenAcc := rfl
@[simp] theorem startWait_lenCount (n : Nat) (kind : WaitKind) (s : State) :
    (startWait n kind s).lenCount = s.lenCount := rfl
@[simp] theorem startWait_resultLen (n : Nat) (kind : WaitKind) (s : State) :
    (startWait n kind s).resultLen = s.resultLen := rfl
@[simp] theorem startWait_deadline (n : Nat) (kind : WaitKind) (s : State) :
    (startWait n kind s).deadline = s.deadline := rfl
@[simp] theorem startWait_waiting (n : Nat) (kind : WaitKind) (s : State) :
    (startWait n kind s).waiting = true := rfl
@[simp] theorem startWait_wake (n : Nat) (kind : WaitKind) (s : State) :
    (startWait n kind s).wake = s.now + n := rfl
@[simp] theorem startWait_waitKind (n : Nat) (kind : WaitKind) (s : State) :
    (startWait n kind s).waitKind = kind := rfl
@[simp] theorem startWait_total (n : Nat) (kind : WaitKind) (s : State) :
    (startWait n kind s).total = s.total := rfl
@[simp] theorem startWait_remaining (n : Nat) (kind : WaitKind) (s : State) :
    (startWait n kind s).remaining = s.remaining := rfl
@[simp] theorem startWait_offset (n : Nat) (kind : WaitKind) (s : State) :
    (startWait n kind s).offset = s.offset := rfl
@[simp] theorem startWait_capacityR (n : Nat) (kind : WaitKind) (s : State) :
    (startWait n kind s).capacityR = s.capacityR := rfl
@[simp] theorem startWait_cmdR (n : Nat) (kind : WaitKind) (s : State) :
    (startWait n kind s).cmdR = s.cmdR := rfl
@[simp] theorem startWait_txc (n : Nat) (kind : WaitKind) (s : State) :
    (startWait n kind s).txc = s.txc := rfl
@[simp] theorem startWait_txcLen (n : Nat) (kind : WaitKind) (s : State) :
    (startWait n kind s).txcLen = s.txcLen := rfl
@[simp] theorem startWait_txcPos (n : Nat) (kind : WaitKind) (s : State) :
    (startWait n kind s).txcPos = s.txcPos := rfl
@[simp] theorem startWait_rxc (n : Nat) (kind : WaitKind) (s : State) :
    (startWait n kind s).rxc = s.rxc := rfl
@[simp] theorem startWait_progressCount (n : Nat) (kind : WaitKind) (s : State) :
    (startWait n kind s).progressCount = s.progressCount := rfl
@[simp] theorem startWait_status (n : Nat) (kind : WaitKind) (s : State) :
    (startWait n kind s).status = s.status := rfl
@[simp] theorem startWait_cause (n : Nat) (kind : WaitKind) (s : State) :
    (startWait n kind s).cause = s.cause := rfl
@[simp] theorem startWait_buf (n : Nat) (kind : WaitKind) (s : State) :
    (startWait n kind s).buf = s.buf := rfl
@[simp] theorem startWait_now (n : Nat) (kind : WaitKind) (s : State) :
    (startWait n kind s).now = s.now := rfl
@[simp] theorem startWait_cancel (n : Nat) (kind : WaitKind) (s : State) :
    (startWait n kind s).cancel = s.cancel := rfl
@[simp] theorem startWait_desc (n : Nat) (kind : WaitKind) (s : State) :
    (startWait n kind s).desc = s.desc := rfl
@[simp] theorem startWait_rx (n : Nat) (kind : WaitKind) (s : State) :
    (startWait n kind s).rx = s.rx := rfl
@[simp] theorem startWait_tx (n : Nat) (kind : WaitKind) (s : State) :
    (startWait n kind s).tx = s.tx := rfl
@[simp] theorem startWait_sink (n : Nat) (kind : WaitKind) (s : State) :
    (startWait n kind s).sink = s.sink := rfl
@[simp] theorem startWait_source (n : Nat) (kind : WaitKind) (s : State) :
    (startWait n kind s).source = s.source := rfl
@[simp] theorem startWait_sourcePos (n : Nat) (kind : WaitKind) (s : State) :
    (startWait n kind s).sourcePos = s.sourcePos := rfl
@[simp] theorem startWait_events (n : Nat) (kind : WaitKind) (s : State) :
    (startWait n kind s).events = s.events := rfl
@[simp] theorem startWait_hostReads (n : Nat) (kind : WaitKind) (s : State) :
    (startWait n kind s).hostReads = s.hostReads := rfl
@[simp] theorem startWait_program (n : Nat) (kind : WaitKind) (s : State) :
    (startWait n kind s).program = s.program := rfl
@[simp] theorem startWait_agenda (n : Nat) (kind : WaitKind) (s : State) :
    (startWait n kind s).agenda = s.agenda := rfl
@[simp] theorem startWait_answers (n : Nat) (kind : WaitKind) (s : State) :
    (startWait n kind s).answers = s.answers := rfl

/-! ## `endWait` -/

@[simp] theorem endWait_cfg (s : State) :
    (endWait s).cfg = s.cfg := by
  unfold endWait
  split <;> rfl
@[simp] theorem endWait_busy (s : State) :
    (endWait s).busy = s.busy := by
  unfold endWait
  split <;> rfl
@[simp] theorem endWait_op (s : State) :
    (endWait s).op = s.op := by
  unfold endWait
  split <;> rfl
@[simp] theorem endWait_phase (s : State) :
    (endWait s).phase = s.phase := by
  unfold endWait
  split <;> rfl
@[simp] theorem endWait_rxsm (s : State) :
    (endWait s).rxsm = s.rxsm := by
  unfold endWait
  split <;> rfl
@[simp] theorem endWait_lenAcc (s : State) :
    (endWait s).lenAcc = s.lenAcc := by
  unfold endWait
  split <;> rfl
@[simp] theorem endWait_lenCount (s : State) :
    (endWait s).lenCount = s.lenCount := by
  unfold endWait
  split <;> rfl
@[simp] theorem endWait_resultLen (s : State) :
    (endWait s).resultLen = s.resultLen := by
  unfold endWait
  split <;> rfl
@[simp] theorem endWait_deadline (s : State) :
    (endWait s).deadline = s.deadline := by
  unfold endWait
  split <;> rfl
@[simp] theorem endWait_waiting (s : State) :
    (endWait s).waiting = (s.waiting && decide (s.now < s.wake)) := by
  unfold endWait
  split <;> simp_all
@[simp] theorem endWait_wake (s : State) :
    (endWait s).wake = s.wake := by
  unfold endWait
  split <;> rfl
@[simp] theorem endWait_waitKind (s : State) :
    (endWait s).waitKind = s.waitKind := by
  unfold endWait
  split <;> rfl
@[simp] theorem endWait_total (s : State) :
    (endWait s).total = s.total := by
  unfold endWait
  split <;> rfl
@[simp] theorem endWait_remaining (s : State) :
    (endWait s).remaining = s.remaining := by
  unfold endWait
  split <;> rfl
@[simp] theorem endWait_offset (s : State) :
    (endWait s).offset = s.offset := by
  unfold endWait
  split <;> rfl
@[simp] theorem endWait_capacityR (s : State) :
    (endWait s).capacityR = s.capacityR := by
  unfold endWait
  split <;> rfl
@[simp] theorem endWait_cmdR (s : State) :
    (endWait s).cmdR = s.cmdR := by
  unfold endWait
  split <;> rfl
@[simp] theorem endWait_txc (s : State) :
    (endWait s).txc = s.txc := by
  unfold endWait
  split <;> rfl
@[simp] theorem endWait_txcLen (s : State) :
    (endWait s).txcLen = s.txcLen := by
  unfold endWait
  split <;> rfl
@[simp] theorem endWait_txcPos (s : State) :
    (endWait s).txcPos = s.txcPos := by
  unfold endWait
  split <;> rfl
@[simp] theorem endWait_rxc (s : State) :
    (endWait s).rxc = s.rxc := by
  unfold endWait
  split <;> rfl
@[simp] theorem endWait_progressCount (s : State) :
    (endWait s).progressCount = s.progressCount := by
  unfold endWait
  split <;> rfl
@[simp] theorem endWait_status (s : State) :
    (endWait s).status = s.status := by
  unfold endWait
  split <;> rfl
@[simp] theorem endWait_cause (s : State) :
    (endWait s).cause = s.cause := by
  unfold endWait
  split <;> rfl
@[simp] theorem endWait_buf (s : State) :
    (endWait s).buf = s.buf := by
  unfold endWait
  split <;> rfl
@[simp] theorem endWait_now (s : State) :
    (endWait s).now = s.now := by
  unfold endWait
  split <;> rfl
@[simp] theorem endWait_cancel (s : State) :
    (endWait s).cancel = s.cancel := by
  unfold endWait
  split <;> rfl
@[simp] theorem endWait_desc (s : State) :
    (endWait s).desc = s.desc := by
  unfold endWait
  split <;> rfl
@[simp] theorem endWait_rx (s : State) :
    (endWait s).rx = s.rx := by
  unfold endWait
  split <;> rfl
@[simp] theorem endWait_tx (s : State) :
    (endWait s).tx = s.tx := by
  unfold endWait
  split <;> rfl
@[simp] theorem endWait_sink (s : State) :
    (endWait s).sink = s.sink := by
  unfold endWait
  split <;> rfl
@[simp] theorem endWait_source (s : State) :
    (endWait s).source = s.source := by
  unfold endWait
  split <;> rfl
@[simp] theorem endWait_sourcePos (s : State) :
    (endWait s).sourcePos = s.sourcePos := by
  unfold endWait
  split <;> rfl
@[simp] theorem endWait_events (s : State) :
    (endWait s).events = s.events := by
  unfold endWait
  split <;> rfl
@[simp] theorem endWait_hostReads (s : State) :
    (endWait s).hostReads = s.hostReads := by
  unfold endWait
  split <;> rfl
@[simp] theorem endWait_program (s : State) :
    (endWait s).program = s.program := by
  unfold endWait
  split <;> rfl
@[simp] theorem endWait_agenda (s : State) :
    (endWait s).agenda = s.agenda := by
  unfold endWait
  split <;> rfl
@[simp] theorem endWait_answers (s : State) :
    (endWait s).answers = s.answers := by
  unfold endWait
  split <;> rfl

/-! ## `setDeadline` -/

@[simp] theorem setDeadline_cfg (s : State) :
    (setDeadline s).cfg = s.cfg := rfl
@[simp] theorem setDeadline_busy (s : State) :
    (setDeadline s).busy = s.busy := rfl
@[simp] theorem setDeadline_op (s : State) :
    (setDeadline s).op = s.op := rfl
@[simp] theorem setDeadline_phase (s : State) :
    (setDeadline s).phase = s.phase := rfl
@[simp] theorem setDeadline_rxsm (s : State) :
    (setDeadline s).rxsm = s.rxsm := rfl
@[simp] theorem setDeadline_lenAcc (s : State) :
    (setDeadline s).lenAcc = s.lenAcc := rfl
@[simp] theorem setDeadline_lenCount (s : State) :
    (setDeadline s).lenCount = s.lenCount := rfl
@[simp] theorem setDeadline_resultLen (s : State) :
    (setDeadline s).resultLen = s.resultLen := rfl
@[simp] theorem setDeadline_deadline (s : State) :
    (setDeadline s).deadline = s.now + s.cfg.tTimeout := rfl
@[simp] theorem setDeadline_waiting (s : State) :
    (setDeadline s).waiting = s.waiting := rfl
@[simp] theorem setDeadline_wake (s : State) :
    (setDeadline s).wake = s.wake := rfl
@[simp] theorem setDeadline_waitKind (s : State) :
    (setDeadline s).waitKind = s.waitKind := rfl
@[simp] theorem setDeadline_total (s : State) :
    (setDeadline s).total = s.total := rfl
@[simp] theorem setDeadline_remaining (s : State) :
    (setDeadline s).remaining = s.remaining := rfl
@[simp] theorem setDeadline_offset (s : State) :
    (setDeadline s).offset = s.offset := rfl
@[simp] theorem setDeadline_capacityR (s : State) :
    (setDeadline s).capacityR = s.capacityR := rfl
@[simp] theorem setDeadline_cmdR (s : State) :
    (setDeadline s).cmdR = s.cmdR := rfl
@[simp] theorem setDeadline_txc (s : State) :
    (setDeadline s).txc = s.txc := rfl
@[simp] theorem setDeadline_txcLen (s : State) :
    (setDeadline s).txcLen = s.txcLen := rfl
@[simp] theorem setDeadline_txcPos (s : State) :
    (setDeadline s).txcPos = s.txcPos := rfl
@[simp] theorem setDeadline_rxc (s : State) :
    (setDeadline s).rxc = s.rxc := rfl
@[simp] theorem setDeadline_progressCount (s : State) :
    (setDeadline s).progressCount = s.progressCount := rfl
@[simp] theorem setDeadline_status (s : State) :
    (setDeadline s).status = s.status := rfl
@[simp] theorem setDeadline_cause (s : State) :
    (setDeadline s).cause = s.cause := rfl
@[simp] theorem setDeadline_buf (s : State) :
    (setDeadline s).buf = s.buf := rfl
@[simp] theorem setDeadline_now (s : State) :
    (setDeadline s).now = s.now := rfl
@[simp] theorem setDeadline_cancel (s : State) :
    (setDeadline s).cancel = s.cancel := rfl
@[simp] theorem setDeadline_desc (s : State) :
    (setDeadline s).desc = s.desc := rfl
@[simp] theorem setDeadline_rx (s : State) :
    (setDeadline s).rx = s.rx := rfl
@[simp] theorem setDeadline_tx (s : State) :
    (setDeadline s).tx = s.tx := rfl
@[simp] theorem setDeadline_sink (s : State) :
    (setDeadline s).sink = s.sink := rfl
@[simp] theorem setDeadline_source (s : State) :
    (setDeadline s).source = s.source := rfl
@[simp] theorem setDeadline_sourcePos (s : State) :
    (setDeadline s).sourcePos = s.sourcePos := rfl
@[simp] theorem setDeadline_events (s : State) :
    (setDeadline s).events = s.events := rfl
@[simp] theorem setDeadline_hostReads (s : State) :
    (setDeadline s).hostReads = s.hostReads := rfl
@[simp] theorem setDeadline_program (s : State) :
    (setDeadline s).program = s.program := rfl
@[simp] theorem setDeadline_agenda (s : State) :
    (setDeadline s).agenda = s.agenda := rfl
@[simp] theorem setDeadline_answers (s : State) :
    (setDeadline s).answers = s.answers := rfl

/-! ## `transportRead` -/

@[simp] theorem transportRead_cfg (k : Nat) (s : State) :
    (transportRead k s).2.cfg = s.cfg := rfl
@[simp] theorem transportRead_busy (k : Nat) (s : State) :
    (transportRead k s).2.busy = s.busy := rfl
@[simp] theorem transportRead_op (k : Nat) (s : State) :
    (transportRead k s).2.op = s.op := rfl
@[simp] theorem transportRead_phase (k : Nat) (s : State) :
    (transportRead k s).2.phase = s.phase := rfl
@[simp] theorem transportRead_rxsm (k : Nat) (s : State) :
    (transportRead k s).2.rxsm = s.rxsm := rfl
@[simp] theorem transportRead_lenAcc (k : Nat) (s : State) :
    (transportRead k s).2.lenAcc = s.lenAcc := rfl
@[simp] theorem transportRead_lenCount (k : Nat) (s : State) :
    (transportRead k s).2.lenCount = s.lenCount := rfl
@[simp] theorem transportRead_resultLen (k : Nat) (s : State) :
    (transportRead k s).2.resultLen = s.resultLen := rfl
@[simp] theorem transportRead_deadline (k : Nat) (s : State) :
    (transportRead k s).2.deadline = s.deadline := rfl
@[simp] theorem transportRead_waiting (k : Nat) (s : State) :
    (transportRead k s).2.waiting = s.waiting := rfl
@[simp] theorem transportRead_wake (k : Nat) (s : State) :
    (transportRead k s).2.wake = s.wake := rfl
@[simp] theorem transportRead_waitKind (k : Nat) (s : State) :
    (transportRead k s).2.waitKind = s.waitKind := rfl
@[simp] theorem transportRead_total (k : Nat) (s : State) :
    (transportRead k s).2.total = s.total := rfl
@[simp] theorem transportRead_remaining (k : Nat) (s : State) :
    (transportRead k s).2.remaining = s.remaining := rfl
@[simp] theorem transportRead_offset (k : Nat) (s : State) :
    (transportRead k s).2.offset = s.offset := rfl
@[simp] theorem transportRead_capacityR (k : Nat) (s : State) :
    (transportRead k s).2.capacityR = s.capacityR := rfl
@[simp] theorem transportRead_cmdR (k : Nat) (s : State) :
    (transportRead k s).2.cmdR = s.cmdR := rfl
@[simp] theorem transportRead_txc (k : Nat) (s : State) :
    (transportRead k s).2.txc = s.txc := rfl
@[simp] theorem transportRead_txcLen (k : Nat) (s : State) :
    (transportRead k s).2.txcLen = s.txcLen := rfl
@[simp] theorem transportRead_txcPos (k : Nat) (s : State) :
    (transportRead k s).2.txcPos = s.txcPos := rfl
@[simp] theorem transportRead_rxc (k : Nat) (s : State) :
    (transportRead k s).2.rxc = s.rxc := rfl
@[simp] theorem transportRead_progressCount (k : Nat) (s : State) :
    (transportRead k s).2.progressCount = s.progressCount := rfl
@[simp] theorem transportRead_status (k : Nat) (s : State) :
    (transportRead k s).2.status = s.status := rfl
@[simp] theorem transportRead_cause (k : Nat) (s : State) :
    (transportRead k s).2.cause = s.cause := rfl
@[simp] theorem transportRead_buf (k : Nat) (s : State) :
    (transportRead k s).2.buf = s.buf := rfl
@[simp] theorem transportRead_now (k : Nat) (s : State) :
    (transportRead k s).2.now = s.now := rfl
@[simp] theorem transportRead_cancel (k : Nat) (s : State) :
    (transportRead k s).2.cancel = s.cancel := rfl
@[simp] theorem transportRead_desc (k : Nat) (s : State) :
    (transportRead k s).2.desc = s.desc := rfl
@[simp] theorem transportRead_rx (k : Nat) (s : State) :
    (transportRead k s).2.rx = s.rx.drop (min k s.answers.read) := rfl
@[simp] theorem transportRead_tx (k : Nat) (s : State) :
    (transportRead k s).2.tx = s.tx := rfl
@[simp] theorem transportRead_sink (k : Nat) (s : State) :
    (transportRead k s).2.sink = s.sink := rfl
@[simp] theorem transportRead_source (k : Nat) (s : State) :
    (transportRead k s).2.source = s.source := rfl
@[simp] theorem transportRead_sourcePos (k : Nat) (s : State) :
    (transportRead k s).2.sourcePos = s.sourcePos := rfl
@[simp] theorem transportRead_events (k : Nat) (s : State) :
    (transportRead k s).2.events = s.events := rfl
@[simp] theorem transportRead_hostReads (k : Nat) (s : State) :
    (transportRead k s).2.hostReads = s.hostReads := rfl
@[simp] theorem transportRead_program (k : Nat) (s : State) :
    (transportRead k s).2.program = s.program := rfl
@[simp] theorem transportRead_agenda (k : Nat) (s : State) :
    (transportRead k s).2.agenda = s.agenda := rfl
@[simp] theorem transportRead_answers (k : Nat) (s : State) :
    (transportRead k s).2.answers = s.answers := rfl

/-! ## `transportWrite` -/

@[simp] theorem transportWrite_cfg (bs : List Byte) (s : State) :
    (transportWrite bs s).2.cfg = s.cfg := rfl
@[simp] theorem transportWrite_busy (bs : List Byte) (s : State) :
    (transportWrite bs s).2.busy = s.busy := rfl
@[simp] theorem transportWrite_op (bs : List Byte) (s : State) :
    (transportWrite bs s).2.op = s.op := rfl
@[simp] theorem transportWrite_phase (bs : List Byte) (s : State) :
    (transportWrite bs s).2.phase = s.phase := rfl
@[simp] theorem transportWrite_rxsm (bs : List Byte) (s : State) :
    (transportWrite bs s).2.rxsm = s.rxsm := rfl
@[simp] theorem transportWrite_lenAcc (bs : List Byte) (s : State) :
    (transportWrite bs s).2.lenAcc = s.lenAcc := rfl
@[simp] theorem transportWrite_lenCount (bs : List Byte) (s : State) :
    (transportWrite bs s).2.lenCount = s.lenCount := rfl
@[simp] theorem transportWrite_resultLen (bs : List Byte) (s : State) :
    (transportWrite bs s).2.resultLen = s.resultLen := rfl
@[simp] theorem transportWrite_deadline (bs : List Byte) (s : State) :
    (transportWrite bs s).2.deadline = s.deadline := rfl
@[simp] theorem transportWrite_waiting (bs : List Byte) (s : State) :
    (transportWrite bs s).2.waiting = s.waiting := rfl
@[simp] theorem transportWrite_wake (bs : List Byte) (s : State) :
    (transportWrite bs s).2.wake = s.wake := rfl
@[simp] theorem transportWrite_waitKind (bs : List Byte) (s : State) :
    (transportWrite bs s).2.waitKind = s.waitKind := rfl
@[simp] theorem transportWrite_total (bs : List Byte) (s : State) :
    (transportWrite bs s).2.total = s.total := rfl
@[simp] theorem transportWrite_remaining (bs : List Byte) (s : State) :
    (transportWrite bs s).2.remaining = s.remaining := rfl
@[simp] theorem transportWrite_offset (bs : List Byte) (s : State) :
    (transportWrite bs s).2.offset = s.offset := rfl
@[simp] theorem transportWrite_capacityR (bs : List Byte) (s : State) :
    (transportWrite bs s).2.capacityR = s.capacityR := rfl
@[simp] theorem transportWrite_cmdR (bs : List Byte) (s : State) :
    (transportWrite bs s).2.cmdR = s.cmdR := rfl
@[simp] theorem transportWrite_txc (bs : List Byte) (s : State) :
    (transportWrite bs s).2.txc = s.txc := rfl
@[simp] theorem transportWrite_txcLen (bs : List Byte) (s : State) :
    (transportWrite bs s).2.txcLen = s.txcLen := rfl
@[simp] theorem transportWrite_txcPos (bs : List Byte) (s : State) :
    (transportWrite bs s).2.txcPos = s.txcPos := rfl
@[simp] theorem transportWrite_rxc (bs : List Byte) (s : State) :
    (transportWrite bs s).2.rxc = s.rxc := rfl
@[simp] theorem transportWrite_progressCount (bs : List Byte) (s : State) :
    (transportWrite bs s).2.progressCount = s.progressCount := rfl
@[simp] theorem transportWrite_status (bs : List Byte) (s : State) :
    (transportWrite bs s).2.status = s.status := rfl
@[simp] theorem transportWrite_cause (bs : List Byte) (s : State) :
    (transportWrite bs s).2.cause = s.cause := rfl
@[simp] theorem transportWrite_buf (bs : List Byte) (s : State) :
    (transportWrite bs s).2.buf = s.buf := rfl
@[simp] theorem transportWrite_now (bs : List Byte) (s : State) :
    (transportWrite bs s).2.now = s.now := rfl
@[simp] theorem transportWrite_cancel (bs : List Byte) (s : State) :
    (transportWrite bs s).2.cancel = s.cancel := rfl
@[simp] theorem transportWrite_desc (bs : List Byte) (s : State) :
    (transportWrite bs s).2.desc = s.desc := rfl
@[simp] theorem transportWrite_rx (bs : List Byte) (s : State) :
    (transportWrite bs s).2.rx = s.rx := rfl
@[simp] theorem transportWrite_tx (bs : List Byte) (s : State) :
    (transportWrite bs s).2.tx = s.tx ++ bs.take (transportWrite bs s).1 := rfl
@[simp] theorem transportWrite_sink (bs : List Byte) (s : State) :
    (transportWrite bs s).2.sink = s.sink := rfl
@[simp] theorem transportWrite_source (bs : List Byte) (s : State) :
    (transportWrite bs s).2.source = s.source := rfl
@[simp] theorem transportWrite_sourcePos (bs : List Byte) (s : State) :
    (transportWrite bs s).2.sourcePos = s.sourcePos := rfl
@[simp] theorem transportWrite_events (bs : List Byte) (s : State) :
    (transportWrite bs s).2.events = s.events := rfl
@[simp] theorem transportWrite_hostReads (bs : List Byte) (s : State) :
    (transportWrite bs s).2.hostReads = s.hostReads := rfl
@[simp] theorem transportWrite_program (bs : List Byte) (s : State) :
    (transportWrite bs s).2.program = s.program := rfl
@[simp] theorem transportWrite_agenda (bs : List Byte) (s : State) :
    (transportWrite bs s).2.agenda = s.agenda := rfl
@[simp] theorem transportWrite_answers (bs : List Byte) (s : State) :
    (transportWrite bs s).2.answers = s.answers := rfl

/-! ## `transportDiscard` -/

@[simp] theorem transportDiscard_cfg (s : State) :
    (transportDiscard s).cfg = s.cfg := rfl
@[simp] theorem transportDiscard_busy (s : State) :
    (transportDiscard s).busy = s.busy := rfl
@[simp] theorem transportDiscard_op (s : State) :
    (transportDiscard s).op = s.op := rfl
@[simp] theorem transportDiscard_phase (s : State) :
    (transportDiscard s).phase = s.phase := rfl
@[simp] theorem transportDiscard_rxsm (s : State) :
    (transportDiscard s).rxsm = s.rxsm := rfl
@[simp] theorem transportDiscard_lenAcc (s : State) :
    (transportDiscard s).lenAcc = s.lenAcc := rfl
@[simp] theorem transportDiscard_lenCount (s : State) :
    (transportDiscard s).lenCount = s.lenCount := rfl
@[simp] theorem transportDiscard_resultLen (s : State) :
    (transportDiscard s).resultLen = s.resultLen := rfl
@[simp] theorem transportDiscard_deadline (s : State) :
    (transportDiscard s).deadline = s.deadline := rfl
@[simp] theorem transportDiscard_waiting (s : State) :
    (transportDiscard s).waiting = s.waiting := rfl
@[simp] theorem transportDiscard_wake (s : State) :
    (transportDiscard s).wake = s.wake := rfl
@[simp] theorem transportDiscard_waitKind (s : State) :
    (transportDiscard s).waitKind = s.waitKind := rfl
@[simp] theorem transportDiscard_total (s : State) :
    (transportDiscard s).total = s.total := rfl
@[simp] theorem transportDiscard_remaining (s : State) :
    (transportDiscard s).remaining = s.remaining := rfl
@[simp] theorem transportDiscard_offset (s : State) :
    (transportDiscard s).offset = s.offset := rfl
@[simp] theorem transportDiscard_capacityR (s : State) :
    (transportDiscard s).capacityR = s.capacityR := rfl
@[simp] theorem transportDiscard_cmdR (s : State) :
    (transportDiscard s).cmdR = s.cmdR := rfl
@[simp] theorem transportDiscard_txc (s : State) :
    (transportDiscard s).txc = s.txc := rfl
@[simp] theorem transportDiscard_txcLen (s : State) :
    (transportDiscard s).txcLen = s.txcLen := rfl
@[simp] theorem transportDiscard_txcPos (s : State) :
    (transportDiscard s).txcPos = s.txcPos := rfl
@[simp] theorem transportDiscard_rxc (s : State) :
    (transportDiscard s).rxc = s.rxc := rfl
@[simp] theorem transportDiscard_progressCount (s : State) :
    (transportDiscard s).progressCount = s.progressCount := rfl
@[simp] theorem transportDiscard_status (s : State) :
    (transportDiscard s).status = s.status := rfl
@[simp] theorem transportDiscard_cause (s : State) :
    (transportDiscard s).cause = s.cause := rfl
@[simp] theorem transportDiscard_buf (s : State) :
    (transportDiscard s).buf = s.buf := rfl
@[simp] theorem transportDiscard_now (s : State) :
    (transportDiscard s).now = s.now := rfl
@[simp] theorem transportDiscard_cancel (s : State) :
    (transportDiscard s).cancel = s.cancel := rfl
@[simp] theorem transportDiscard_desc (s : State) :
    (transportDiscard s).desc = s.desc := rfl
@[simp] theorem transportDiscard_rx (s : State) :
    (transportDiscard s).rx = [] := rfl
@[simp] theorem transportDiscard_tx (s : State) :
    (transportDiscard s).tx = s.tx := rfl
@[simp] theorem transportDiscard_sink (s : State) :
    (transportDiscard s).sink = s.sink := rfl
@[simp] theorem transportDiscard_source (s : State) :
    (transportDiscard s).source = s.source := rfl
@[simp] theorem transportDiscard_sourcePos (s : State) :
    (transportDiscard s).sourcePos = s.sourcePos := rfl
@[simp] theorem transportDiscard_events (s : State) :
    (transportDiscard s).events = s.events := rfl
@[simp] theorem transportDiscard_hostReads (s : State) :
    (transportDiscard s).hostReads = s.hostReads := rfl
@[simp] theorem transportDiscard_program (s : State) :
    (transportDiscard s).program = s.program := rfl
@[simp] theorem transportDiscard_agenda (s : State) :
    (transportDiscard s).agenda = s.agenda := rfl
@[simp] theorem transportDiscard_answers (s : State) :
    (transportDiscard s).answers = s.answers := rfl

/-! ## `sinkAppend` -/

@[simp] theorem sinkAppend_cfg (bs : List Byte) (s : State) :
    (sinkAppend bs s).2.cfg = s.cfg := rfl
@[simp] theorem sinkAppend_busy (bs : List Byte) (s : State) :
    (sinkAppend bs s).2.busy = s.busy := rfl
@[simp] theorem sinkAppend_op (bs : List Byte) (s : State) :
    (sinkAppend bs s).2.op = s.op := rfl
@[simp] theorem sinkAppend_phase (bs : List Byte) (s : State) :
    (sinkAppend bs s).2.phase = s.phase := rfl
@[simp] theorem sinkAppend_rxsm (bs : List Byte) (s : State) :
    (sinkAppend bs s).2.rxsm = s.rxsm := rfl
@[simp] theorem sinkAppend_lenAcc (bs : List Byte) (s : State) :
    (sinkAppend bs s).2.lenAcc = s.lenAcc := rfl
@[simp] theorem sinkAppend_lenCount (bs : List Byte) (s : State) :
    (sinkAppend bs s).2.lenCount = s.lenCount := rfl
@[simp] theorem sinkAppend_resultLen (bs : List Byte) (s : State) :
    (sinkAppend bs s).2.resultLen = s.resultLen := rfl
@[simp] theorem sinkAppend_deadline (bs : List Byte) (s : State) :
    (sinkAppend bs s).2.deadline = s.deadline := rfl
@[simp] theorem sinkAppend_waiting (bs : List Byte) (s : State) :
    (sinkAppend bs s).2.waiting = s.waiting := rfl
@[simp] theorem sinkAppend_wake (bs : List Byte) (s : State) :
    (sinkAppend bs s).2.wake = s.wake := rfl
@[simp] theorem sinkAppend_waitKind (bs : List Byte) (s : State) :
    (sinkAppend bs s).2.waitKind = s.waitKind := rfl
@[simp] theorem sinkAppend_total (bs : List Byte) (s : State) :
    (sinkAppend bs s).2.total = s.total := rfl
@[simp] theorem sinkAppend_remaining (bs : List Byte) (s : State) :
    (sinkAppend bs s).2.remaining = s.remaining := rfl
@[simp] theorem sinkAppend_offset (bs : List Byte) (s : State) :
    (sinkAppend bs s).2.offset = s.offset := rfl
@[simp] theorem sinkAppend_capacityR (bs : List Byte) (s : State) :
    (sinkAppend bs s).2.capacityR = s.capacityR := rfl
@[simp] theorem sinkAppend_cmdR (bs : List Byte) (s : State) :
    (sinkAppend bs s).2.cmdR = s.cmdR := rfl
@[simp] theorem sinkAppend_txc (bs : List Byte) (s : State) :
    (sinkAppend bs s).2.txc = s.txc := rfl
@[simp] theorem sinkAppend_txcLen (bs : List Byte) (s : State) :
    (sinkAppend bs s).2.txcLen = s.txcLen := rfl
@[simp] theorem sinkAppend_txcPos (bs : List Byte) (s : State) :
    (sinkAppend bs s).2.txcPos = s.txcPos := rfl
@[simp] theorem sinkAppend_rxc (bs : List Byte) (s : State) :
    (sinkAppend bs s).2.rxc = s.rxc := rfl
@[simp] theorem sinkAppend_progressCount (bs : List Byte) (s : State) :
    (sinkAppend bs s).2.progressCount = s.progressCount := rfl
@[simp] theorem sinkAppend_status (bs : List Byte) (s : State) :
    (sinkAppend bs s).2.status = s.status := rfl
@[simp] theorem sinkAppend_cause (bs : List Byte) (s : State) :
    (sinkAppend bs s).2.cause = s.cause := rfl
@[simp] theorem sinkAppend_buf (bs : List Byte) (s : State) :
    (sinkAppend bs s).2.buf = s.buf := rfl
@[simp] theorem sinkAppend_now (bs : List Byte) (s : State) :
    (sinkAppend bs s).2.now = s.now := rfl
@[simp] theorem sinkAppend_cancel (bs : List Byte) (s : State) :
    (sinkAppend bs s).2.cancel = s.cancel := rfl
@[simp] theorem sinkAppend_desc (bs : List Byte) (s : State) :
    (sinkAppend bs s).2.desc = s.desc := rfl
@[simp] theorem sinkAppend_rx (bs : List Byte) (s : State) :
    (sinkAppend bs s).2.rx = s.rx := rfl
@[simp] theorem sinkAppend_tx (bs : List Byte) (s : State) :
    (sinkAppend bs s).2.tx = s.tx := rfl
@[simp] theorem sinkAppend_sink (bs : List Byte) (s : State) :
    (sinkAppend bs s).2.sink = s.sink ++ bs.take (sinkAppend bs s).1 := rfl
@[simp] theorem sinkAppend_source (bs : List Byte) (s : State) :
    (sinkAppend bs s).2.source = s.source := rfl
@[simp] theorem sinkAppend_sourcePos (bs : List Byte) (s : State) :
    (sinkAppend bs s).2.sourcePos = s.sourcePos := rfl
@[simp] theorem sinkAppend_events (bs : List Byte) (s : State) :
    (sinkAppend bs s).2.events = s.events := rfl
@[simp] theorem sinkAppend_hostReads (bs : List Byte) (s : State) :
    (sinkAppend bs s).2.hostReads = s.hostReads := rfl
@[simp] theorem sinkAppend_program (bs : List Byte) (s : State) :
    (sinkAppend bs s).2.program = s.program := rfl
@[simp] theorem sinkAppend_agenda (bs : List Byte) (s : State) :
    (sinkAppend bs s).2.agenda = s.agenda := rfl
@[simp] theorem sinkAppend_answers (bs : List Byte) (s : State) :
    (sinkAppend bs s).2.answers = s.answers := rfl

/-! ## `sourceRead` -/

@[simp] theorem sourceRead_cfg (k : Nat) (s : State) :
    (sourceRead k s).2.cfg = s.cfg := rfl
@[simp] theorem sourceRead_busy (k : Nat) (s : State) :
    (sourceRead k s).2.busy = s.busy := rfl
@[simp] theorem sourceRead_op (k : Nat) (s : State) :
    (sourceRead k s).2.op = s.op := rfl
@[simp] theorem sourceRead_phase (k : Nat) (s : State) :
    (sourceRead k s).2.phase = s.phase := rfl
@[simp] theorem sourceRead_rxsm (k : Nat) (s : State) :
    (sourceRead k s).2.rxsm = s.rxsm := rfl
@[simp] theorem sourceRead_lenAcc (k : Nat) (s : State) :
    (sourceRead k s).2.lenAcc = s.lenAcc := rfl
@[simp] theorem sourceRead_lenCount (k : Nat) (s : State) :
    (sourceRead k s).2.lenCount = s.lenCount := rfl
@[simp] theorem sourceRead_resultLen (k : Nat) (s : State) :
    (sourceRead k s).2.resultLen = s.resultLen := rfl
@[simp] theorem sourceRead_deadline (k : Nat) (s : State) :
    (sourceRead k s).2.deadline = s.deadline := rfl
@[simp] theorem sourceRead_waiting (k : Nat) (s : State) :
    (sourceRead k s).2.waiting = s.waiting := rfl
@[simp] theorem sourceRead_wake (k : Nat) (s : State) :
    (sourceRead k s).2.wake = s.wake := rfl
@[simp] theorem sourceRead_waitKind (k : Nat) (s : State) :
    (sourceRead k s).2.waitKind = s.waitKind := rfl
@[simp] theorem sourceRead_total (k : Nat) (s : State) :
    (sourceRead k s).2.total = s.total := rfl
@[simp] theorem sourceRead_remaining (k : Nat) (s : State) :
    (sourceRead k s).2.remaining = s.remaining := rfl
@[simp] theorem sourceRead_offset (k : Nat) (s : State) :
    (sourceRead k s).2.offset = s.offset := rfl
@[simp] theorem sourceRead_capacityR (k : Nat) (s : State) :
    (sourceRead k s).2.capacityR = s.capacityR := rfl
@[simp] theorem sourceRead_cmdR (k : Nat) (s : State) :
    (sourceRead k s).2.cmdR = s.cmdR := rfl
@[simp] theorem sourceRead_txc (k : Nat) (s : State) :
    (sourceRead k s).2.txc = s.txc := rfl
@[simp] theorem sourceRead_txcLen (k : Nat) (s : State) :
    (sourceRead k s).2.txcLen = s.txcLen := rfl
@[simp] theorem sourceRead_txcPos (k : Nat) (s : State) :
    (sourceRead k s).2.txcPos = s.txcPos := rfl
@[simp] theorem sourceRead_rxc (k : Nat) (s : State) :
    (sourceRead k s).2.rxc = s.rxc := rfl
@[simp] theorem sourceRead_progressCount (k : Nat) (s : State) :
    (sourceRead k s).2.progressCount = s.progressCount := rfl
@[simp] theorem sourceRead_status (k : Nat) (s : State) :
    (sourceRead k s).2.status = s.status := rfl
@[simp] theorem sourceRead_cause (k : Nat) (s : State) :
    (sourceRead k s).2.cause = s.cause := rfl
@[simp] theorem sourceRead_buf (k : Nat) (s : State) :
    (sourceRead k s).2.buf = s.buf := rfl
@[simp] theorem sourceRead_now (k : Nat) (s : State) :
    (sourceRead k s).2.now = s.now := rfl
@[simp] theorem sourceRead_cancel (k : Nat) (s : State) :
    (sourceRead k s).2.cancel = s.cancel := rfl
@[simp] theorem sourceRead_desc (k : Nat) (s : State) :
    (sourceRead k s).2.desc = s.desc := rfl
@[simp] theorem sourceRead_rx (k : Nat) (s : State) :
    (sourceRead k s).2.rx = s.rx := rfl
@[simp] theorem sourceRead_tx (k : Nat) (s : State) :
    (sourceRead k s).2.tx = s.tx := rfl
@[simp] theorem sourceRead_sink (k : Nat) (s : State) :
    (sourceRead k s).2.sink = s.sink := rfl
@[simp] theorem sourceRead_source (k : Nat) (s : State) :
    (sourceRead k s).2.source = s.source := rfl
@[simp] theorem sourceRead_sourcePos (k : Nat) (s : State) :
    (sourceRead k s).2.sourcePos = s.sourcePos + (sourceRead k s).1.length := rfl
@[simp] theorem sourceRead_events (k : Nat) (s : State) :
    (sourceRead k s).2.events = s.events := rfl
@[simp] theorem sourceRead_hostReads (k : Nat) (s : State) :
    (sourceRead k s).2.hostReads = s.hostReads := rfl
@[simp] theorem sourceRead_program (k : Nat) (s : State) :
    (sourceRead k s).2.program = s.program := rfl
@[simp] theorem sourceRead_agenda (k : Nat) (s : State) :
    (sourceRead k s).2.agenda = s.agenda := rfl
@[simp] theorem sourceRead_answers (k : Nat) (s : State) :
    (sourceRead k s).2.answers = s.answers := rfl

/-! ## `emitProgress` -/

@[simp] theorem emitProgress_cfg (s : State) :
    (emitProgress s).cfg = s.cfg := rfl
@[simp] theorem emitProgress_busy (s : State) :
    (emitProgress s).busy = s.busy := rfl
@[simp] theorem emitProgress_op (s : State) :
    (emitProgress s).op = s.op := rfl
@[simp] theorem emitProgress_phase (s : State) :
    (emitProgress s).phase = s.phase := rfl
@[simp] theorem emitProgress_rxsm (s : State) :
    (emitProgress s).rxsm = s.rxsm := rfl
@[simp] theorem emitProgress_lenAcc (s : State) :
    (emitProgress s).lenAcc = s.lenAcc := rfl
@[simp] theorem emitProgress_lenCount (s : State) :
    (emitProgress s).lenCount = s.lenCount := rfl
@[simp] theorem emitProgress_resultLen (s : State) :
    (emitProgress s).resultLen = s.resultLen := rfl
@[simp] theorem emitProgress_deadline (s : State) :
    (emitProgress s).deadline = s.deadline := rfl
@[simp] theorem emitProgress_waiting (s : State) :
    (emitProgress s).waiting = s.waiting := rfl
@[simp] theorem emitProgress_wake (s : State) :
    (emitProgress s).wake = s.wake := rfl
@[simp] theorem emitProgress_waitKind (s : State) :
    (emitProgress s).waitKind = s.waitKind := rfl
@[simp] theorem emitProgress_total (s : State) :
    (emitProgress s).total = s.total := rfl
@[simp] theorem emitProgress_remaining (s : State) :
    (emitProgress s).remaining = s.remaining := rfl
@[simp] theorem emitProgress_offset (s : State) :
    (emitProgress s).offset = s.offset := rfl
@[simp] theorem emitProgress_capacityR (s : State) :
    (emitProgress s).capacityR = s.capacityR := rfl
@[simp] theorem emitProgress_cmdR (s : State) :
    (emitProgress s).cmdR = s.cmdR := rfl
@[simp] theorem emitProgress_txc (s : State) :
    (emitProgress s).txc = s.txc := rfl
@[simp] theorem emitProgress_txcLen (s : State) :
    (emitProgress s).txcLen = s.txcLen := rfl
@[simp] theorem emitProgress_txcPos (s : State) :
    (emitProgress s).txcPos = s.txcPos := rfl
@[simp] theorem emitProgress_rxc (s : State) :
    (emitProgress s).rxc = s.rxc := rfl
@[simp] theorem emitProgress_progressCount (s : State) :
    (emitProgress s).progressCount = s.progressCount + 1 := rfl
@[simp] theorem emitProgress_status (s : State) :
    (emitProgress s).status = s.status := rfl
@[simp] theorem emitProgress_cause (s : State) :
    (emitProgress s).cause = s.cause := rfl
@[simp] theorem emitProgress_buf (s : State) :
    (emitProgress s).buf = s.buf := rfl
@[simp] theorem emitProgress_now (s : State) :
    (emitProgress s).now = s.now := rfl
@[simp] theorem emitProgress_cancel (s : State) :
    (emitProgress s).cancel = s.cancel := rfl
@[simp] theorem emitProgress_desc (s : State) :
    (emitProgress s).desc = s.desc := rfl
@[simp] theorem emitProgress_rx (s : State) :
    (emitProgress s).rx = s.rx := rfl
@[simp] theorem emitProgress_tx (s : State) :
    (emitProgress s).tx = s.tx := rfl
@[simp] theorem emitProgress_sink (s : State) :
    (emitProgress s).sink = s.sink := rfl
@[simp] theorem emitProgress_source (s : State) :
    (emitProgress s).source = s.source := rfl
@[simp] theorem emitProgress_sourcePos (s : State) :
    (emitProgress s).sourcePos = s.sourcePos := rfl
@[simp] theorem emitProgress_events (s : State) :
    (emitProgress s).events = s.events ++ [.progress s.total s.remaining] := rfl
@[simp] theorem emitProgress_hostReads (s : State) :
    (emitProgress s).hostReads = s.hostReads := rfl
@[simp] theorem emitProgress_program (s : State) :
    (emitProgress s).program = s.program := rfl
@[simp] theorem emitProgress_agenda (s : State) :
    (emitProgress s).agenda = s.agenda := rfl
@[simp] theorem emitProgress_answers (s : State) :
    (emitProgress s).answers = s.answers := rfl

end Sys2Proof.Machine
end

