-- ==== Sys2Proof/Laws/Ops.lean ====
section
/-! SUPPORT. For each shared operation, once, everything it can do. The proofs cite these instead of
unfolding the operations. -/

namespace Sys2Proof.Machine

/-! ## The block step of an operation -/

/-- The start of an operation is its `start:` block exactly when the block is idle. -/
theorem operationStep_idle {startBlock iterate : State → Result} {own : Phase → Bool} {s : State}
    (h : s.busy = false) : operationStep startBlock iterate own s = startBlock s := by
  simp [operationStep, h]

/-- A block in one of the operation's phases that does not wait runs an `iterate:` block. -/
theorem operationStep_iterate {startBlock iterate : State → Result} {own : Phase → Bool} {s : State}
    (h : s.busy = true) (ho : own s.phase = true) (hw : s.waiting = false) :
    operationStep startBlock iterate own s = iterate s := by
  simp [operationStep, h, ho, hw]

/-- A block in one of the operation's phases that waits can only end its wait. -/
theorem operationStep_waiting {startBlock iterate : State → Result} {own : Phase → Bool} {s : State}
    (h : s.busy = true) (ho : own s.phase = true) (hw : s.waiting = true) :
    operationStep startBlock iterate own s = .next (endWait s) := by
  simp [operationStep, h, ho, hw]

/-- A block that runs another operation faults. -/
theorem operationStep_other {startBlock iterate : State → Result} {own : Phase → Bool} {s : State}
    (h : s.busy = true) (ho : own s.phase = false) :
    operationStep startBlock iterate own s = .fault (.hostProtocol s.desc) := by
  simp [operationStep, h, ho]

/-- If a block step of an operation answers a next state, one of three things happened (R6). -/
theorem operationStep_next {startBlock iterate : State → Result} {own : Phase → Bool} {s t : State}
    (h : operationStep startBlock iterate own s = .next t) :
    (s.busy = false ∧ startBlock s = .next t)
      ∨ (s.busy = true ∧ own s.phase = true ∧ s.waiting = true ∧ t = endWait s)
      ∨ (s.busy = true ∧ own s.phase = true ∧ s.waiting = false ∧ iterate s = .next t) := by
  unfold operationStep at h
  cases hb : s.busy <;> simp only [hb, if_true, if_false, Bool.false_eq_true] at h
  · exact .inl ⟨rfl, h⟩
  · cases ho : own s.phase <;> simp only [ho, if_true, if_false, Bool.false_eq_true] at h
    · cases h
    · cases hw : s.waiting <;> simp only [hw, if_true, if_false, Bool.false_eq_true] at h
      · exact .inr (.inr ⟨rfl, rfl, rfl, h⟩)
      · cases h; exact .inr (.inl ⟨rfl, rfl, rfl, rfl⟩)

/-- The end of a wait writes `WAITING` and nothing else, and only once `now` has reached `WAKE`. -/
theorem endWait_cases (s : State) :
    (s.wake ≤ s.now ∧ endWait s = { s with waiting := false }) ∨ (s.now < s.wake ∧ endWait s = s) := by
  unfold endWait
  split
  · exact .inl ⟨by assumption, rfl⟩
  · exact .inr ⟨by omega, rfl⟩

/-- A transfer of no byte ends the operation or starts a poll wait. -/
theorem zeroTransfer_cases (poll : Nat) (expired : State → State) (s : State) :
    (s.deadline ≤ s.now ∧ zeroTransfer poll expired s = expired s)
      ∨ (s.now < s.deadline ∧ zeroTransfer poll expired s = startWait poll .poll s) := by
  unfold zeroTransfer
  split
  · exact .inl ⟨by assumption, rfl⟩
  · exact .inr ⟨by omega, rfl⟩

/-! ## The primitives -/

/-- R70: a read returns at most as many bytes as it was asked for, and takes them from the front of
the receive buffer. -/
theorem transportRead_spec (k : Nat) (s : State) :
    (transportRead k s).1.length ≤ k
      ∧ (transportRead k s).1 ++ (transportRead k s).2.rx = s.rx
      ∧ (transportRead k s).2.rx = s.rx.drop (transportRead k s).1.length := by
  refine ⟨by simp [transportRead], by simp [transportRead], ?_⟩
  simp only [transportRead, List.length_take]
  rcases Nat.le_total (min k s.answers.read) s.rx.length with h | h
  · rw [Nat.min_eq_left h]
  · rw [Nat.min_eq_right h, List.drop_length, List.drop_eq_nil_of_le h]

/-- A read of no byte leaves the state as it is. -/
theorem transportRead_nil {k : Nat} {s : State} (h : (transportRead k s).1 = []) :
    (transportRead k s).2 = s := by
  have h2 : s.rx.drop (min k s.answers.read) = s.rx := by
    have h3 := (transportRead_spec k s).2.1
    rw [h] at h3
    exact h3
  simp only [transportRead, h2]

/-- R71: a write accepts at most what it was given and transmits exactly the accepted bytes. -/
theorem transportWrite_spec (bs : List Byte) (s : State) :
    (transportWrite bs s).1 ≤ bs.length
      ∧ (transportWrite bs s).1 ≤ s.answers.write
      ∧ (transportWrite bs s).2.tx = s.tx ++ bs.take (transportWrite bs s).1 :=
  ⟨by simp [transportWrite], by simp [transportWrite], rfl⟩

/-- A write of which nothing is accepted leaves the state as it is. -/
theorem transportWrite_zero {bs : List Byte} {s : State} (h : (transportWrite bs s).1 = 0) :
    (transportWrite bs s).2 = s := by
  simp only [transportWrite] at h ⊢
  simp [h]

/-- R73: an append accepts at most what it was given and appends exactly the accepted bytes. -/
theorem sinkAppend_spec (bs : List Byte) (s : State) :
    (sinkAppend bs s).1 ≤ bs.length
      ∧ (sinkAppend bs s).2.sink = s.sink ++ bs.take (sinkAppend bs s).1 :=
  ⟨by simp [sinkAppend], rfl⟩

/-- R74: a source read returns at most as many bytes as it was asked for, the next unread ones, and
never reads past the end of the source. -/
theorem sourceRead_spec (k : Nat) (s : State) :
    (sourceRead k s).1.length ≤ k
      ∧ (∀ i < (sourceRead k s).1.length, (sourceRead k s).1[i]? = s.source[s.sourcePos + i]?)
      ∧ (s.sourcePos ≤ s.source.length → (sourceRead k s).2.sourcePos ≤ s.source.length) := by
  refine ⟨by simp [sourceRead], fun i hi => ?_, fun h => ?_⟩
  · simp only [sourceRead, List.length_take, List.length_drop] at hi ⊢
    rw [List.getElem?_take, if_pos (by omega), List.getElem?_drop]
  · simp only [sourceRead, List.length_take, List.length_drop]
    omega

/-! ## Counters -/

/-- A counter moved up within its width counts exactly. -/
theorem countUp_toNat {c : U32} {n : Nat} (h : c.toNat + n < 2 ^ 32) :
    (countUp c n).toNat = c.toNat + n := by
  simp only [countUp, BitVec.toNat_ofNat]
  exact Nat.mod_eq_of_lt h

/-- A counter moved down never wraps. -/
@[simp] theorem countDown_toNat (c : U32) (n : Nat) : (countDown c n).toNat = c.toNat - n := by
  simp only [countDown, BitVec.toNat_ofNat]
  exact Nat.mod_eq_of_lt (by have := c.isLt; omega)

theorem countUp_eq_add (c : U32) (n : Nat) : countUp c n = c + BitVec.ofNat 32 n := by
  apply BitVec.eq_of_toNat_eq
  simp [countUp, BitVec.toNat_add]

theorem countDown_eq_sub {c : U32} {n : Nat} (h : n ≤ c.toNat) :
    countDown c n = c - BitVec.ofNat 32 n := by
  apply BitVec.eq_of_toNat_eq
  have hc := c.isLt
  rw [countDown_toNat, BitVec.toNat_sub, BitVec.toNat_ofNat,
    Nat.mod_eq_of_lt (by omega : n < 2 ^ 32)]
  omega

theorem countDown_eq_zero {c : U32} {n : Nat} : countDown c n = 0 ↔ c.toNat ≤ n := by
  constructor
  · intro h
    have h2 := congrArg BitVec.toNat h
    rw [countDown_toNat] at h2
    simp at h2
    omega
  · intro h
    apply BitVec.eq_of_toNat_eq
    rw [countDown_toNat]
    simp
    omega

/-! ## What an iteration can do -/

/-- R153 to R157: what RECV_LEN can do with a byte: nothing but move `RXSM`, start the accumulator,
take length bytes, or end. -/
theorem receive_cases (b : Byte) (bs : List Byte) (s : State) :
    receive b bs s = s
      ∨ (s.rxsm = .seekDle ∧ b = dle ∧ receive b bs s = { s with rxsm := .seekStx })
      ∨ (s.rxsm = .seekStx ∧ b = stx
        ∧ receive b bs s = { s with rxsm := .readLength, lenAcc := 0, lenCount := 0 })
      ∨ (s.rxsm = .seekStx ∧ b ≠ stx ∧ receive b bs s = { s with rxsm := .seekDle })
      ∨ (s.rxsm = .seekStx ∧ b ≠ stx
        ∧ receive b bs s = finish .noFrameMarker .badStx { s with rxsm := .timeout })
      ∨ (s.rxsm = .readLength ∧ receive b bs s = readLength bs s) := by
  cases h : s.rxsm <;> simp only [receive, h]
  · unfold seekDle
    split
    · exact .inr (.inl ⟨trivial, by assumption, rfl⟩)
    · exact .inl rfl
  · unfold seekStx
    split
    · exact .inr (.inr (.inl ⟨trivial, by assumption, rfl⟩))
    · split
      · split
        · exact .inl rfl
        · exact .inr (.inr (.inr (.inl ⟨trivial, by assumption, rfl⟩)))
      · exact .inr (.inr (.inr (.inr (.inl ⟨trivial, by assumption, rfl⟩))))
  · exact .inr (.inr (.inr (.inr (.inr ⟨trivial, trivial⟩))))
  · exact .inl trivial
  · exact .inl trivial
  · exact .inl trivial

/-- R157: what `READ_LENGTH` does with the bytes it takes. -/
theorem readLength_cases (bs : List Byte) (s : State) :
    (BitVec.ofNat 3 (s.lenCount.toNat + bs.length) = 4#3 ∧
      readLength bs s = lengthDone (accumulate s.lenAcc bs)
        { s with lenAcc := accumulate s.lenAcc bs, lenCount := 4 })
      ∨ (BitVec.ofNat 3 (s.lenCount.toNat + bs.length) ≠ 4#3 ∧
        readLength bs s = { s with
          lenAcc := accumulate s.lenAcc bs,
          lenCount := BitVec.ofNat 3 (s.lenCount.toNat + bs.length) }) := by
  by_cases h : BitVec.ofNat 3 (s.lenCount.toNat + bs.length) = 4#3
  · refine .inl ⟨h, ?_⟩
    simp only [readLength, h]
    rfl
  · refine .inr ⟨h, ?_⟩
    simp only [readLength]
    rw [if_neg (by simpa using h)]

/-- R152: what an iteration of RECV_LEN can do: cancel, receive, end at the deadline, or wait. -/
theorem recvLenIterate_cases (s : State) :
    (s.cancel = true ∧ recvLenIterate s = finish .cancelled .cancel { s with rxsm := .cancelled })
      ∨ (s.cancel = false ∧ (transportRead (rxAsk s) s).1 = [] ∧ s.deadline ≤ s.now
        ∧ recvLenIterate s = recvLenExpired s)
      ∨ (s.cancel = false ∧ (transportRead (rxAsk s) s).1 = [] ∧ s.now < s.deadline
        ∧ recvLenIterate s = startWait s.cfg.pPollRx .poll s)
      ∨ (s.cancel = false ∧ ∃ b bs, (transportRead (rxAsk s) s).1 = b :: bs
        ∧ recvLenIterate s = receive b (b :: bs) (setDeadline (transportRead (rxAsk s) s).2)) := by
  unfold recvLenIterate
  cases hc : s.cancel
  · simp only [Bool.false_eq_true, if_false, false_and, false_or, true_and]
    cases hr : (transportRead (rxAsk s) s).1 with
    | nil =>
      simp only [transportRead_nil hr]
      rcases zeroTransfer_cases s.cfg.pPollRx recvLenExpired s with ⟨h, e⟩ | ⟨h, e⟩
      · exact .inl ⟨trivial, h, e⟩
      · exact .inr (.inl ⟨trivial, h, e⟩)
    | cons b bs => exact .inr (.inr ⟨b, bs, rfl, rfl⟩)
  · exact .inl ⟨rfl, rfl⟩

/-- R182: what an iteration of RECV_BUF can do. -/
theorem recvBufIterate_cases (s : State) :
    (s.cancel = true ∧ recvBufIterate s = bulkCancelled s)
      ∨ (s.cancel = false ∧ (transportRead (bufAsk s) s).1 = [] ∧ s.deadline ≤ s.now
        ∧ recvBufIterate s = bulkExpired s)
      ∨ (s.cancel = false ∧ (transportRead (bufAsk s) s).1 = [] ∧ s.now < s.deadline
        ∧ recvBufIterate s = startWait s.cfg.pPollBulk .poll s)
      ∨ (s.cancel = false ∧ (transportRead (bufAsk s) s).1 ≠ []
        ∧ s.capacityR.toNat < s.offset.toNat + (transportRead (bufAsk s) s).1.length
        ∧ recvBufIterate s = finish .capacity .none (transportRead (bufAsk s) s).2)
      ∨ (s.cancel = false ∧ (transportRead (bufAsk s) s).1 ≠ []
        ∧ s.offset.toNat + (transportRead (bufAsk s) s).1.length ≤ s.capacityR.toNat
        ∧ recvBufIterate s
          = bufCommit (transportRead (bufAsk s) s).1 (transportRead (bufAsk s) s).2) := by
  unfold recvBufIterate
  cases hc : s.cancel
  · simp only [Bool.false_eq_true, if_false, false_and, false_or, true_and]
    cases hr : (transportRead (bufAsk s) s).1 with
    | nil =>
      simp only [transportRead_nil hr]
      rcases zeroTransfer_cases s.cfg.pPollBulk bulkExpired s with ⟨h, e⟩ | ⟨h, e⟩
      · exact .inl ⟨trivial, h, e⟩
      · exact .inr (.inl ⟨trivial, h, e⟩)
    | cons b bs =>
      refine .inr (.inr ?_)
      by_cases h : s.capacityR.toNat < s.offset.toNat + (b :: bs).length
      · exact .inl ⟨by simp, h, by simp only [h, if_true]⟩
      · exact .inr ⟨by simp, by omega, by simp only [h, if_false]⟩
  · exact .inl ⟨rfl, rfl⟩

/-- R189: what an iteration of RECV_SINK can do. -/
theorem recvSinkIterate_cases (s : State) :
    (s.cancel = true ∧ recvSinkIterate s = bulkCancelled s)
      ∨ (s.cancel = false ∧ (transportRead (sinkAsk s) s).1 = [] ∧ s.deadline ≤ s.now
        ∧ recvSinkIterate s = bulkExpired s)
      ∨ (s.cancel = false ∧ (transportRead (sinkAsk s) s).1 = [] ∧ s.now < s.deadline
        ∧ recvSinkIterate s = startWait s.cfg.pPollBulk .poll s)
      ∨ (s.cancel = false ∧ (transportRead (sinkAsk s) s).1 ≠ []
        ∧ recvSinkIterate s
          = sinkCommit (transportRead (sinkAsk s) s).1 (transportRead (sinkAsk s) s).2) := by
  unfold recvSinkIterate
  cases hc : s.cancel
  · simp only [Bool.false_eq_true, if_false, false_and, false_or, true_and]
    cases hr : (transportRead (sinkAsk s) s).1 with
    | nil =>
      simp only [transportRead_nil hr]
      rcases zeroTransfer_cases s.cfg.pPollBulk bulkExpired s with ⟨h, e⟩ | ⟨h, e⟩
      · exact .inl ⟨trivial, h, e⟩
      · exact .inr (.inl ⟨trivial, h, e⟩)
    | cons b bs => exact .inr (.inr ⟨by simp, rfl⟩)
  · exact .inl ⟨rfl, rfl⟩

/-- R222: what a fetch of SEND can do. -/
theorem sendFetchIterate_cases (s : State) :
    (s.remaining = 0 ∧ sendFetchIterate s = finish .ok .none s)
      ∨ (s.remaining ≠ 0 ∧ s.cancel = true ∧ sendFetchIterate s = bulkCancelled s)
      ∨ (s.remaining ≠ 0 ∧ s.cancel = false
        ∧ (sourceRead (fetchAsk s) s).1.length < fetchAsk s
        ∧ sendFetchIterate s = finish .shortSource .none (sourceRead (fetchAsk s) s).2)
      ∨ (s.remaining ≠ 0 ∧ s.cancel = false
        ∧ (sourceRead (fetchAsk s) s).1.length = fetchAsk s
        ∧ sendFetchIterate s = { (sourceRead (fetchAsk s) s).2 with
          txc := Memory.ofBytes (sourceRead (fetchAsk s) s).1,
          txcLen := BitVec.ofNat 32 (fetchAsk s), txcPos := 0, phase := .sendWrite }) := by
  unfold sendFetchIterate
  by_cases hr : s.remaining = 0
  · exact .inl ⟨hr, by rw [if_pos hr]⟩
  · rw [if_neg hr]
    cases hc : s.cancel
    · by_cases h : (sourceRead (fetchAsk s) s).1.length < fetchAsk s
      · exact .inr (.inr (.inl ⟨hr, rfl, h, by simp [h]⟩))
      · have h2 := (sourceRead_spec (fetchAsk s) s).1
        exact .inr (.inr (.inr ⟨hr, rfl, by omega, by simp [h]⟩))
    · exact .inr (.inl ⟨hr, rfl, rfl⟩)

/-- R224 to R226: what a write of SEND can do. -/
theorem sendWriteIterate_cases (s : State) :
    (s.cancel = true ∧ sendWriteIterate s = .next (bulkCancelled s))
      ∨ (s.cancel = false ∧ ∃ i, s.txc.readBytes s.txcPos.toNat (writeAsk s) = .error i
        ∧ sendWriteIterate s = .fault (.unwrittenRead .txc i))
      ∨ (s.cancel = false ∧ ∃ chunk, s.txc.readBytes s.txcPos.toNat (writeAsk s) = .ok chunk
        ∧ 0 < (transportWrite chunk s).1
        ∧ sendWriteIterate s
          = .next (sendAccepted (transportWrite chunk s).1 (transportWrite chunk s).2))
      ∨ (s.cancel = false ∧ ∃ chunk, s.txc.readBytes s.txcPos.toNat (writeAsk s) = .ok chunk
        ∧ (transportWrite chunk s).1 = 0 ∧ s.deadline ≤ s.now
        ∧ sendWriteIterate s = .next (bulkExpired s))
      ∨ (s.cancel = false ∧ ∃ chunk, s.txc.readBytes s.txcPos.toNat (writeAsk s) = .ok chunk
        ∧ (transportWrite chunk s).1 = 0 ∧ s.now < s.deadline
        ∧ sendWriteIterate s = .next (startWait s.cfg.pPollBulk .poll s)) := by
  unfold sendWriteIterate
  cases hc : s.cancel
  · simp only [Bool.false_eq_true, if_false, false_and, false_or, true_and]
    cases hr : s.txc.readBytes s.txcPos.toNat (writeAsk s) with
    | error i => exact .inl ⟨i, rfl, rfl⟩
    | ok chunk =>
      refine .inr ?_
      by_cases h : 0 < (transportWrite chunk s).1
      · exact .inl ⟨chunk, rfl, h, by simp only [h, if_true]⟩
      · have h0 : (transportWrite chunk s).1 = 0 := by omega
        simp only [h, if_false, transportWrite_zero h0]
        rcases zeroTransfer_cases s.cfg.pPollBulk bulkExpired s with ⟨hd, e⟩ | ⟨hd, e⟩
        · exact .inr (.inl ⟨chunk, rfl, h0, hd, by rw [e]⟩)
        · exact .inr (.inr ⟨chunk, rfl, h0, hd, by rw [e]⟩)
  · exact .inl ⟨rfl, rfl⟩

/-! ## The host's reads -/

/-- R46: a register read by the host records its value and changes nothing else. -/
theorem hostReadReg_eq (r : Reg) (s : State) :
    hostReadReg r s = { s with hostReads := s.hostReads ++ [.register r (readReg r s)] } := rfl

/-- A read of `BUF` that answers a next state read written bytes only, and changes nothing else. -/
theorem hostReadBuf_next {i n : Nat} {s t : State} (h : hostReadBuf i n s = .next t) :
    i + n ≤ s.cfg.bufSize ∧ ∃ bs, s.buf.readBytes i n = .ok bs
      ∧ t = { s with hostReads := s.hostReads ++ [.buffer i bs] } := by
  unfold hostReadBuf at h
  split at h
  · cases h
  · split at h
    · rename_i bs hbs
      cases h
      exact ⟨by omega, bs, hbs, rfl⟩
    · cases h

end Sys2Proof.Machine
end

