-- ==== Sys2Proof/Laws/PerInstr.lean ====
section
/-! SUPPORT. The family EncodedFields: what the encoding of each instruction holds (30_encoding.md R90,
R93, R101, R103). One lemma per constructor of Instr. -/

namespace Sys2Proof.Laws.EncodedFields

/-- The fields of a descriptor, `RSV` among them (R101). -/
def fields (d : Desc) : BitVec 3 × BitVec 5 × Byte × BitVec 16 × U32 :=
  (descOp d, d.extractLsb' 3 5, descCmd d, descCapacity d, descLength d)

/-- R101, R103: an operation's descriptor holds its operands and 0 in every other field; a frame or a
header is its bytes on the wire (R90, R93). -/
def Statement : Instr → Prop
  | .request cmd => ∃ d, encode (.request cmd) = .descriptor d ∧ fields d = (1, 0, cmd, 0, 0)
  | .recvLen => ∃ d, encode .recvLen = .descriptor d ∧ fields d = (2, 0, 0, 0, 0)
  | .recvBuf capacity length => ∃ d, encode (.recvBuf capacity length) = .descriptor d
      ∧ fields d = (3, 0, 0, capacity, length)
  | .recvSink length => ∃ d, encode (.recvSink length) = .descriptor d
      ∧ fields d = (4, 0, 0, 0, length)
  | .send length => ∃ d, encode (.send length) = .descriptor d ∧ fields d = (5, 0, 0, 0, length)
  | .frameReadHeader => encode .frameReadHeader = .wire [0x10, 0x02, 0, 0, 0, 1, 0x01]
  | .frameReadRom => encode .frameReadRom = .wire [0x10, 0x02, 0, 0, 0, 1, 0x02]
  | .frameReadRam => encode .frameReadRam = .wire [0x10, 0x02, 0, 0, 0, 1, 0x03]
  | .frameWriteRam => encode .frameWriteRam = .wire [0x10, 0x02, 0, 0, 0, 1, 0x04]
  | .frameGetRamSize => encode .frameGetRamSize = .wire [0x10, 0x02, 0, 0, 0, 1, 0xF0]
  | .frameReservedCmd cmd => encode (.frameReservedCmd cmd) = .wire [0x10, 0x02, 0, 0, 0, 1, cmd]
  | .responseHeader length => ∃ b0 b1 b2 b3,
      encode (.responseHeader length) = .wire [0x10, 0x02, b0, b1, b2, b3]
        ∧ length = b0 ++ b1 ++ b2 ++ b3

/-- A descriptor made of in-range operands is their weighted sum. -/
theorem descOf_toNat (op : BitVec 3) (cmd : Byte) (capacity : BitVec 16) (length : U32) :
    (descOf op.toNat cmd.toNat capacity.toNat length.toNat).toNat
      = length.toNat * 4294967296 + capacity.toNat * 65536 + cmd.toNat * 256 + op.toNat := by
  have h1 := op.isLt
  have h2 := cmd.isLt
  have h3 := capacity.isLt
  have h4 := length.isLt
  simp only [descOf, BitVec.toNat_ofNat]
  exact Nat.mod_eq_of_lt (by omega)

/-- The fields of a descriptor made of in-range operands are those operands. -/
theorem fields_descOf (op : BitVec 3) (cmd : Byte) (capacity : BitVec 16) (length : U32) :
    fields (descOf op.toNat cmd.toNat capacity.toNat length.toNat)
      = (op, 0, cmd, capacity, length) := by
  have h0 := descOf_toNat op cmd capacity length
  generalize descOf op.toNat cmd.toNat capacity.toNat length.toNat = d at h0
  have h1 := op.isLt
  have h2 := cmd.isLt
  have h3 := capacity.isLt
  have h4 := length.isLt
  have e (k w : Nat) : (d.extractLsb' k w).toNat = d.toNat / 2 ^ k % 2 ^ w := by
    rw [BitVec.extractLsb'_toNat, Nat.shiftRight_eq_div_pow]
  refine Prod.ext ?_ (Prod.ext ?_ (Prod.ext ?_ (Prod.ext ?_ ?_)))
  · apply BitVec.eq_of_toNat_eq
    change (d.extractLsb' 0 3).toNat = op.toNat
    rw [e, h0]; omega
  · apply BitVec.eq_of_toNat_eq
    change (d.extractLsb' 3 5).toNat = 0
    rw [e, h0]; omega
  · apply BitVec.eq_of_toNat_eq
    change (d.extractLsb' 8 8).toNat = cmd.toNat
    rw [e, h0]; omega
  · apply BitVec.eq_of_toNat_eq
    change (d.extractLsb' 16 16).toNat = capacity.toNat
    rw [e, h0]; omega
  · apply BitVec.eq_of_toNat_eq
    change (d.extractLsb' 32 32).toNat = length.toNat
    rw [e, h0]; omega

theorem request (cmd : Byte) : Statement (.request cmd) :=
  ⟨_, rfl, fields_descOf 1 cmd 0 0⟩

theorem recvLen : Statement .recvLen := ⟨_, rfl, fields_descOf 2 0 0 0⟩

theorem recvBuf (capacity : BitVec 16) (length : U32) : Statement (.recvBuf capacity length) :=
  ⟨_, rfl, fields_descOf 3 0 capacity length⟩

theorem recvSink (length : U32) : Statement (.recvSink length) :=
  ⟨_, rfl, fields_descOf 4 0 0 length⟩

theorem send (length : U32) : Statement (.send length) := ⟨_, rfl, fields_descOf 5 0 0 length⟩

theorem frameReadHeader : Statement .frameReadHeader := rfl

theorem frameReadRom : Statement .frameReadRom := rfl

theorem frameReadRam : Statement .frameReadRam := rfl

theorem frameWriteRam : Statement .frameWriteRam := rfl

theorem frameGetRamSize : Statement .frameGetRamSize := rfl

theorem frameReservedCmd (cmd : Byte) : Statement (.frameReservedCmd cmd) := rfl

theorem responseHeader (length : U32) : Statement (.responseHeader length) := by
  refine ⟨length.extractLsb' 24 8, length.extractLsb' 16 8, length.extractLsb' 8 8,
    length.extractLsb' 0 8, rfl, ?_⟩
  apply BitVec.eq_of_getLsbD_eq
  intro i hi
  simp only [BitVec.getLsbD_append, BitVec.getLsbD_extractLsb']
  rcases Nat.lt_or_ge i 8 with h | h
  · simp [h]
  · rcases Nat.lt_or_ge i 16 with h' | h'
    · simp [show ¬ i < 8 by omega, show i - 8 < 8 by omega, show 8 + (i - 8) = i by omega]
    · rcases Nat.lt_or_ge i 24 with h'' | h''
      · simp [show ¬ i < 8 by omega, show ¬ i - 8 < 8 by omega, show i - 8 - 8 < 8 by omega,
          show 16 + (i - 8 - 8) = i by omega]
      · simp [show ¬ i < 8 by omega, show ¬ i - 8 < 8 by omega, show ¬ i - 8 - 8 < 8 by omega,
          show i - 8 - 8 - 8 < 8 by omega, show 24 + (i - 8 - 8 - 8) = i by omega]

end Sys2Proof.Laws.EncodedFields
end

