-- ==== Sys2Proof/Tests/Slice0.lean ====
section
/-! SUPPORT. The model's own tests. The expected results are those of 95_test_vectors.md (each test
names its vector) or are written out from the rule a test names. The second half shows, for every
obligation with hypotheses, states and operands that meet all of them together. -/

namespace Sys2Proof.Tests

open Sys2Proof Sys2Proof.Machine

/-! ## Helpers -/

def nextState : Result → Option State
  | .next t => some t
  | .fault _ => none
  | .refused _ => none

def faultOf : Result → Option Fault
  | .next _ => none
  | .fault r => some r
  | .refused _ => none

def refusalOf : Result → Option Refusal
  | .next _ => none
  | .fault _ => none
  | .refused r => some r

/-- One field of the next state of an instruction. -/
def view {α : Type} (f : State → α) (r : Result) : Option α := (nextState r).map f

/-- Collaborators that move as many bytes as they are asked for. -/
def ready : Answers := ⟨512, 512, 512, 512⟩

/-- Right after reset, with collaborators that answer `ready`. -/
def idle : State := { State.reset with answers := ready }

/-- A running operation in phase `p`, with the deadline of a start at time 0. -/
def running (p : Phase) : State := { idle with busy := true, op := phaseOp p, phase := p, deadline := 3000 }

/-- RECV_LEN in receive state `r` with the bytes `bs` arrived. -/
def receiving (r : RxState) (bs : List Byte) : State := { running .rxRun with rxsm := r, rx := bs }

/-- RECV_BUF 9, 32 after its first read of 42_bulk_receive.md R186, with the other six bytes there. -/
def midBuf : State :=
  { running .bufRun with
    total := 9, remaining := 6, offset := 3, capacityR := 32, deadline := 3100, now := 120,
    buf := ⟨[(0, 0x03), (1, 0x41), (2, 0x42)]⟩, rx := [0x43, 0x13, 0x02, 0x00, 0x01, 0x01] }

/-- RECV_SINK 5 with two bytes in the sink and four bytes arrived. -/
def midSink : State :=
  { running .sinkRun with
    total := 5, remaining := 3, offset := 2, sink := [0x01, 0x02], rx := [0x03, 0x04, 0x05, 0x99] }

/-- SEND 4 with a source of four bytes, before its first fetch. -/
def midFetch : State :=
  { running .sendFetch with total := 4, remaining := 4, source := [0xA0, 0xA1, 0xA2, 0xA3] }

/-- SEND 4 with one byte of its chunk sent. -/
def midWrite : State :=
  { running .sendWrite with
    total := 4, remaining := 3, offset := 1, source := [0xA0, 0xA1, 0xA2, 0xA3], sourcePos := 4,
    txc := ⟨[(0, 0xA0), (1, 0xA1), (2, 0xA2), (3, 0xA3)]⟩, txcLen := 4, txcPos := 1, tx := [0xA0] }

/-- A state with one move on its agenda. -/
def withMove (m : Move) (s : State) : State := { s with agenda := [m] }

/-! ## Well-formedness: an ill-formed term for each check -/

theorem test_reserved_frame_of_defined_command_is_ill_formed :
    definedCommands.map (fun c => (Instr.frameReservedCmd c).wellFormed)
      = [false, false, false, false, false] := by decide

theorem test_reserved_frame_well_formed :
    (Instr.frameReservedCmd 0x00).wellFormed = true ∧ (Instr.frameReservedCmd 0x05).wellFormed = true
      ∧ (Instr.frameReservedCmd 0xFF).wellFormed = true := by decide

/-- V16 and V6: the bound of R103 under CFG0. -/
theorem test_capacity_above_buffer_is_ill_formed :
    (Instr.recvBuf 8193 1).wf Config.reference = false
      ∧ (Instr.recvBuf 8192 8192).wf Config.reference = true := by decide

/-- R8: one configuration outside each bound. -/
theorem test_bad_configurations :
    [{ Config.reference with tTimeout := 0 }, { Config.reference with pPollRx := 0 },
      { Config.reference with pPollBulk := 0 }, { Config.reference with dThrottle := 0 },
      { Config.reference with chunkRx := 0 }, { Config.reference with chunkTx := 0 },
      { Config.reference with bufSize := 31 }, { Config.reference with bufSize := 65536 }].map
        Config.valid = List.replicate 8 false := by decide

theorem test_good_configurations :
    Config.reference.valid = true ∧ ({ Config.reference with bufSize := 32 } : Config).valid = true
      ∧ ({ Config.reference with bufSize := 65535 } : Config).valid = true := by decide

/-! ## Decoding: words written out from the encodings -/

/-- What a descriptor decodes to. -/
def instrOf (d : Desc) : Option Instr := (decode (.descriptor d)).toOption

/-- V1, V2, V3. -/
theorem test_decode_request :
    instrOf 0x0000000000000101 = some (.request 0x01)
      ∧ instrOf 0x000000000000F001 = some (.request 0xF0)
      ∧ instrOf 0x0000000000000001 = some (.request 0x00) := by decide

/-- V4. -/
theorem test_decode_recvLen : instrOf 0x0000000000000002 = some .recvLen := by decide

/-- V5, V6. -/
theorem test_decode_recvBuf :
    instrOf 0x0000000900200003 = some (.recvBuf 32 9)
      ∧ instrOf 0x0000200020000003 = some (.recvBuf 8192 8192) := by decide

/-- V7. -/
theorem test_decode_recvSink : instrOf 0x0000044C00000004 = some (.recvSink 1100) := by decide

/-- V8. -/
theorem test_decode_send : instrOf 0x0000004000000005 = some (.send 64) := by decide

/-- V9 to V11: the reserved operation codes. -/
theorem test_decode_reserved_op :
    decodeDesc 0x0000000000000000 = .error (.reservedOp 0)
      ∧ decodeDesc 0x0000000000000006 = .error (.reservedOp 6)
      ∧ decodeDesc 0x0000000000000007 = .error (.reservedOp 7) := by decide

/-- V12 to V15, V17, V18: a bit outside the fields of the operation. -/
theorem test_decode_must_be_zero :
    decodeDesc 0x0000000000000109 = .error (.mustBeZero 1)
      ∧ decodeDesc 0x0000000100000101 = .error (.mustBeZero 1)
      ∧ decodeDesc 0x0000000000000102 = .error (.mustBeZero 2)
      ∧ decodeDesc 0x0000000900200103 = .error (.mustBeZero 3)
      ∧ decodeDesc 0x0000044C00010004 = .error (.mustBeZero 4)
      ∧ decodeDesc 0x0000004000000405 = .error (.mustBeZero 5) := by decide

/-- E1: the five frames, byte for byte. -/
theorem test_decode_frames :
    decodeWire [0x10, 0x02, 0x00, 0x00, 0x00, 0x01, 0x01] = .ok .frameReadHeader
      ∧ decodeWire [0x10, 0x02, 0x00, 0x00, 0x00, 0x01, 0x02] = .ok .frameReadRom
      ∧ decodeWire [0x10, 0x02, 0x00, 0x00, 0x00, 0x01, 0x03] = .ok .frameReadRam
      ∧ decodeWire [0x10, 0x02, 0x00, 0x00, 0x00, 0x01, 0x04] = .ok .frameWriteRam
      ∧ decodeWire [0x10, 0x02, 0x00, 0x00, 0x00, 0x01, 0xF0] = .ok .frameGetRamSize := by decide

/-- V19b: a reserved command. -/
theorem test_decode_reserved_frame :
    decodeWire [0x10, 0x02, 0x00, 0x00, 0x00, 0x01, 0x7E] = .ok (.frameReservedCmd 0x7E) := by decide

/-- V19c, V19d, and a frame one byte short. -/
theorem test_decode_no_frame :
    decodeWire [0x10, 0x02, 0x00, 0x00, 0x00, 0x02, 0x01] = .error .notARequestFrame
      ∧ decodeWire [0x10, 0x03, 0x00, 0x00, 0x00, 0x01, 0x01] = .error .notARequestFrame
      ∧ decodeWire [0x10, 0x02, 0x00, 0x00, 0x00] = .error (.badLength 5) := by decide

/-- V19h, V19i and a header without its marker. -/
theorem test_decode_header :
    decodeWire [0x10, 0x02, 0x12, 0x34, 0x56, 0x78] = .ok (.responseHeader 305419896)
      ∧ decodeWire [0x10, 0x02, 0x10, 0x02, 0x10, 0x02] = .ok (.responseHeader 268570626)
      ∧ decodeWire [0x10, 0x03, 0x00, 0x00, 0x00, 0x00] = .error .notAResponseHeader := by decide

/-- V19e to V19g, V19j. -/
theorem test_hdrLen :
    hdrLen [0x10, 0x02, 0x00, 0x00, 0x00, 0x00] = some 0
      ∧ hdrLen [0x10, 0x02, 0x00, 0x00, 0x01, 0x00] = some 256
      ∧ hdrLen [0x10, 0x02, 0x00, 0x01, 0x00, 0x00] = some 65536
      ∧ hdrLen [0x10, 0x02, 0xFF, 0xFF, 0xFF, 0xFF] = some 4294967295 := by decide

/-- The match words of spec/opcode_table.json. -/
theorem test_table_words :
    decodeTableWord 64 0x0000000000000001 = some (.request 0)
      ∧ decodeTableWord 64 0x0000000000000002 = some .recvLen
      ∧ decodeTableWord 16 0x0003 = some (.recvBuf 0 0)
      ∧ decodeTableWord 32 0x00000004 = some (.recvSink 0)
      ∧ decodeTableWord 32 0x00000005 = some (.send 0)
      ∧ decodeTableWord 56 0x10020000000101 = some .frameReadHeader
      ∧ decodeTableWord 56 0x10020000000102 = some .frameReadRom
      ∧ decodeTableWord 56 0x10020000000103 = some .frameReadRam
      ∧ decodeTableWord 56 0x10020000000104 = some .frameWriteRam
      ∧ decodeTableWord 56 0x100200000001F0 = some .frameGetRamSize
      ∧ decodeTableWord 56 0x10020000000100 = some (.frameReservedCmd 0)
      ∧ decodeTableWord 48 0x100200002000 = some (.responseHeader 8192) := by decide

/-- R108: the textual form of the five operations, and V5's encoding of its line. -/
theorem test_parse_lines :
    parseLine "REQUEST 0xF0 ; get-ram-size".toList = some (.request 0xF0)
      ∧ parseLine "RECV_LEN".toList = some .recvLen
      ∧ parseLine "RECV_BUF 9, 32".toList = some (.recvBuf (.lit 9) 32)
      ∧ parseLine "RECV_SINK RESULT_LEN".toList = some (.recvSink .resultLen)
      ∧ parseLine "SEND 64".toList = some (.send (.lit 64))
      ∧ parseLine "SEND 4294967296".toList = none
      ∧ lineDesc 0 (.recvBuf (.lit 9) 32) = 0x0000000900200003
      ∧ lineDesc 9 (.recvBuf .resultLen 32) = 0x0000000900200003 := by decide

/-! ## Reset and memory -/

theorem test_reset_memories :
    State.reset.buf.wf = true ∧ State.reset.txc.wf = true ∧ State.reset.rxc.wf = true := by decide

/-- Writing in either order gives the same memory. -/
theorem test_memory_canonical :
    (Memory.empty.write 5 0x11).write 2 0x22 = (Memory.empty.write 2 0x22).write 5 0x11
      ∧ (Memory.empty.writeBytes 3 [0x01, 0x02]).readBytes 3 2 = .ok [0x01, 0x02]
      ∧ (Memory.empty.writeBytes 3 [0x01, 0x02]).readBytes 3 3 = .error 5 := by decide

/-- V71: a reset in a SEND abandons it, keeps what was sent and the source's position, and emits no
event. -/
theorem test_reset_in_send :
    view (fun t => (t.busy, t.phase, t.txcLen)) (step (withMove .reset midWrite)) = some (false, .idle, 0)
      ∧ view (fun t => (t.tx, t.sourcePos, t.events.length)) (step (withMove .reset midWrite))
        = some ([0xA0], 4, 0) := by decide

/-! ## One step of each instruction -/

/-- R131: the start latches the command. -/
theorem test_request_start :
    view (fun t => (t.busy, t.phase, t.cmdR, t.op)) (exec (.request 0x02) idle)
      = some (true, .reqSend, 0x02, 1) := by decide

/-- V19o, V19n: stale bytes are discarded and `CANCEL` is not sampled. -/
theorem test_request_sends :
    view (fun t => (t.rx, t.tx, t.status, t.busy))
      (exec (.request 0x00) { running .reqSend with cmdR := 0x01, rx := [0xAA, 0x10], cancel := true })
      = some ([], [0x10, 0x02, 0x00, 0x00, 0x00, 0x01, 0x01], .ok, false) := by decide

/-- V19m: six bytes accepted. -/
theorem test_frame_readRom_short :
    view (fun t => (t.tx, t.status, t.cause))
      (exec .frameReadRom { running .reqSend with cmdR := 0x02, answers := ⟨0, 6, 0, 0⟩ })
      = some ([0x10, 0x02, 0x00, 0x00, 0x00, 0x01], .transportWrite, .shortAccept) := by decide

/-- E1, one frame each. -/
theorem test_frame_readHeader :
    view (fun t => (t.tx, t.status)) (exec .frameReadHeader { running .reqSend with cmdR := 0x01 })
      = some ([0x10, 0x02, 0x00, 0x00, 0x00, 0x01, 0x01], .ok) := by decide

theorem test_frame_readRam :
    view (fun t => (t.tx, t.status)) (exec .frameReadRam { running .reqSend with cmdR := 0x03 })
      = some ([0x10, 0x02, 0x00, 0x00, 0x00, 0x01, 0x03], .ok) := by decide

theorem test_frame_writeRam :
    view (fun t => (t.tx, t.status)) (exec .frameWriteRam { running .reqSend with cmdR := 0x04 })
      = some ([0x10, 0x02, 0x00, 0x00, 0x00, 0x01, 0x04], .ok) := by decide

theorem test_frame_getRamSize :
    view (fun t => (t.tx, t.status)) (exec .frameGetRamSize { running .reqSend with cmdR := 0xF0 })
      = some ([0x10, 0x02, 0x00, 0x00, 0x00, 0x01, 0xF0], .ok) := by decide

/-- V19p. -/
theorem test_frame_reservedCmd :
    view (fun t => (t.tx, t.status))
      (exec (.frameReservedCmd 0x00) { running .reqSend with cmdR := 0x00 })
      = some ([0x10, 0x02, 0x00, 0x00, 0x00, 0x01, 0x00], .ok) := by decide

/-- V26: a second DLE is a bad STX under the reference setting, and is consumed. -/
theorem test_recvLen_bad_stx :
    view (fun t => (t.status, t.cause, t.rxsm, t.rx))
      (exec .recvLen (receiving .seekStx [0x10, 0x02])) = some (.noFrameMarker, .badStx, .timeout, [0x02]) := by
  decide

/-- V30b: the deadline in `READ_LENGTH`. -/
theorem test_recvLen_incomplete :
    view (fun t => (t.status, t.cause, t.lenCount, t.lenAcc))
      (exec .recvLen { receiving .readLength [] with lenCount := 3, lenAcc := 0x20, now := 3000 })
      = some (.incompleteLength, .deadline, 3, 0x20) := by decide

/-- R164, step 7: the last two length bytes; the payload byte after them stays. -/
theorem test_responseHeader :
    view (fun t => (t.status, t.resultLen, t.rxsm, t.rx))
      (exec (.responseHeader 0x2000) { receiving .readLength [0x20, 0x00, 0x77] with lenCount := 2 })
      = some (.ok, 8192, .done, [0x77]) := by decide

/-- V43: a length above the capacity ends at the start. -/
theorem test_recvBuf_capacity :
    view (fun t => (t.status, t.remaining, t.busy)) (exec (.recvBuf 32 33) idle)
      = some (.capacity, 33, false) := by decide

/-- R186, the third read. -/
theorem test_recvBuf_read :
    view (fun t => (t.status, t.offset, t.deadline, t.buf.readBytes 0 9)) (exec (.recvBuf 32 9) midBuf)
      = some (.ok, 9, 3120, .ok [0x03, 0x41, 0x42, 0x43, 0x13, 0x02, 0x00, 0x01, 0x01]) := by decide

/-- R190: a sink that takes one byte of three. -/
theorem test_recvSink_short :
    view (fun t => (t.status, t.sink, t.offset, t.remaining))
      (exec (.recvSink 5) { midSink with answers := ⟨3, 0, 1, 0⟩ })
      = some (.sinkWrite, [0x01, 0x02, 0x03], 3, 0) := by decide

/-- R189: no byte beyond the length is read. -/
theorem test_recvSink_read :
    view (fun t => (t.status, t.sink, t.rx)) (exec (.recvSink 5) midSink)
      = some (.ok, [0x01, 0x02, 0x03, 0x04, 0x05], [0x99]) := by decide

/-- R225: two of the three bytes left are accepted. -/
theorem test_send_partial :
    view (fun t => (t.tx, t.txcPos, t.waiting, t.phase))
      (exec (.send 4) { midWrite with answers := ⟨0, 2, 0, 0⟩ })
      = some ([0xA0, 0xA1, 0xA2], 3, false, .sendWrite) := by decide

/-- R227: the last byte of the chunk starts the throttle wait. -/
theorem test_send_throttle :
    view (fun t => (t.tx, t.waiting, t.wake, t.waitKind)) (exec (.send 4) midWrite)
      = some ([0xA0, 0xA1, 0xA2, 0xA3], true, 20, .throttle) := by decide

/-! ## Faults, the refusal and the host -/

/-- V72. -/
theorem test_start_while_busy :
    faultOf (step (withMove .start { midSink with desc := 2 })) = some (.hostProtocol 2) := by decide

/-- V73. -/
theorem test_unwritten_read :
    faultOf (step (withMove (.readBuf 2 2) midBuf)) = some (.unwrittenRead .buf 3)
      ∧ faultOf (step (withMove (.readBuf 8192 1) midBuf)) = some (.outsideBuf 8192) := by decide

/-- V74. -/
theorem test_bad_configuration_refused :
    refusalOf (step { State.reset with cfg := { Config.reference with pPollBulk := 0 } })
      = some .badConfiguration := by decide

/-- V9, V16: an illegal start leaves everything but `OP` and the result. -/
theorem test_illegal_start :
    view (fun t => (t.status, t.op, t.busy)) (step (withMove .start { idle with desc := 6 }))
      = some (.illegalOp, 6, false)
      ∧ view (fun t => (t.status, t.op, t.total)) (step (withMove .start { idle with desc := 0x0000000120010003 }))
      = some (.illegalOp, 3, 0) := by decide

/-- P1, its first line: a program starts whatever `STATUS` is, and its next line waits. -/
theorem test_program_starts :
    view (fun t => (t.busy, t.desc, t.phase, t.program.length))
      (runs 2 { idle with agenda := [.loadProgram (Transaction.expand .readHeader), .nextLine] })
      = some (true, 0x0000000000000101, .reqSend, 2) := by decide

/-- R280 (a): the end of a program, and a failure it stops at. -/
theorem test_runEnd_done :
    runEnd (.next { idle with status := .ok }) = .done
      ∧ runEnd (.next { idle with status := .capacity, program := [⟨.recvLen, false⟩] }) = .done := by
  decide

/-- R280 (a): an idle block between two lines, or before a line that runs always, is not done. -/
theorem test_runEnd_between_lines :
    runEnd (.next { idle with status := .ok, program := [⟨.recvLen, false⟩] }) = .running
      ∧ runEnd (.next { idle with status := .capacity, program := [⟨.recvLen, true⟩] }) = .running := by
  decide

/-- R280 (b) to (d). -/
theorem test_runEnd_waits :
    runEnd (.fault (.hostProtocol 1)) = .fault (.hostProtocol 1)
      ∧ runEnd (.next midBuf) = .running
      ∧ runEnd (.next { midBuf with waiting := true, wake := 140, agenda := [.tick 20] }) = .waitPending
      ∧ runEnd (.next { midBuf with waiting := true, wake := 140, agenda := [.tick 19] }) = .timeStopped := by
  decide

/-- R37: a read of one byte leaves no value of an earlier read in `RXC`. -/
theorem test_rxc_holds_one_read :
    view (fun t => (t.rxc.read 0, t.rxc.read 1))
      (exec (.recvSink 5) { midSink with rxc := ⟨[(0, 0x01), (1, 0x02)]⟩, answers := ⟨1, 0, 1, 0⟩ })
      = some (some 0x03, none) := by decide

/-- V48: the host's decode of the get-ram-size payload. -/
theorem test_ramSize :
    ramSize { idle with buf := ⟨[(0, 0x00), (1, 0x00), (2, 0x20), (3, 0x00)]⟩ } = some 8192 := by decide

/-- A table word runs as the first instruction after reset. -/
theorem test_fetch_word :
    view (fun t => (t.busy, t.phase, t.total)) (step (State.reset.withFetchWord 64 0x0000004000000005))
      = some (true, .sendFetch, 64)
      ∧ view (fun t => (t.tx.length, t.status)) (step (State.reset.withFetchWord 56 0x10020000000104))
      = some (7, .ok)
      ∧ view (fun t => (t.resultLen, t.status)) (step (State.reset.withFetchWord 48 0x100200000009))
      = some (9, .ok) := by decide

/-! ## Witnesses: the hypotheses of every obligation are met together

One theorem for each obligation with hypotheses, with an example for each of its clauses. -/

theorem inv_idle : Inv idle := by constructor <;> decide
theorem inv_seekDle : Inv (receiving .seekDle [0x55, 0x10]) := by constructor <;> decide
theorem inv_seekStx : Inv (receiving .seekStx [0x02]) := by constructor <;> decide
theorem inv_readLength :
    Inv { receiving .readLength [0x20, 0x00] with lenCount := 2 } := by constructor <;> decide
theorem inv_midBuf : Inv midBuf := by constructor <;> decide
theorem inv_midSink : Inv midSink := by constructor <;> decide
theorem inv_midFetch : Inv midFetch := by constructor <;> decide
theorem inv_midWrite : Inv midWrite := by constructor <;> decide

/-- `s` with the turn of the block next, its collaborators answering `a`. -/
def turn (a : Answers) (s : State) : State := { s with agenda := [.block a] }

theorem witness_DecodeOfEncode :
    (Instr.request 0xFF).wellFormed = true ∧ (Instr.recvBuf 0xFFFF 0xFFFFFFFF).wellFormed = true
      ∧ (Instr.frameReservedCmd 0xEF).wellFormed = true
      ∧ (Instr.responseHeader 0xFFFFFFFF).wellFormed = true := by decide

theorem witness_DecodeMeansEncoding :
    decode (.descriptor 0x0000200020000003) = .ok (.recvBuf 8192 8192)
      ∧ decode (.wire [0x10, 0x02, 0x00, 0x00, 0x00, 0x01, 0xFF]) = .ok (.frameReservedCmd 0xFF)
      ∧ decode (.wire [0x10, 0x02, 0xFF, 0xFF, 0xFF, 0xFF]) = .ok (.responseHeader 0xFFFFFFFF) := by
  decide

theorem witness_LengthIndependentOfSplit :
    ([[0x12, 0x34, 0x56, 0x78]] : List (List Byte)).flatten = [0x12, 0x34, 0x56, 0x78]
      ∧ ([[], [0x12, 0x34, 0x56], [], [0x78]] : List (List Byte)).flatten = [0x12, 0x34, 0x56, 0x78]
      ∧ ([[0x12], [0x34], [0x56], [0x78]] : List (List Byte)).flatten = [0x12, 0x34, 0x56, 0x78] := by
  decide

theorem witness_StepRunsTheDecodedInstruction :
    (idle.cfg.valid = true ∧ (withMove .start { idle with desc := 0x101 }).agenda = [.start]
      ∧ idle.busy = false ∧ decode (.descriptor 0x101) = .ok (.request 0x01))
    ∧ ((turn ready { running .reqSend with cmdR := 0xF0 }).agenda = [.block ready]
      ∧ (running .reqSend).busy = true ∧ (running .reqSend).phase = .reqSend
      ∧ decode (.wire [0x10, 0x02, 0x00, 0x00, 0x00, 0x01, 0xF0]) = .ok .frameGetRamSize)
    ∧ (running .rxRun).phase = .rxRun ∧ midBuf.phase = .bufRun ∧ midSink.phase = .sinkRun
    ∧ midFetch.phase = .sendFetch ∧ midWrite.phase = .sendWrite
    ∧ [midBuf, midSink, midFetch, midWrite].map (fun s => (s.cfg.valid, s.busy))
      = List.replicate 4 (true, true) := by decide

/-- RECV_LEN that has `k` bytes of the length 8192 and the other bytes `bs` before it. -/
def lengthAt (k : BitVec 3) (bs : List Byte) : State :=
  turn ready { receiving .readLength bs with lenCount := k, lenAcc := if k = 3 then 0x20 else 0 }

/-- With none, two and three length bytes already there. -/
theorem witness_StepRunsTheCompletedHeader :
    ∀ c ∈ [((0 : BitVec 3), ([0x00, 0x00, 0x20, 0x00] : List Byte)), (2, [0x20, 0x00]), (3, [0x00])],
      (lengthAt c.1 (c.2 ++ [0x77])).cfg.valid = true
      ∧ (lengthAt c.1 (c.2 ++ [0x77])).agenda = [.block ready]
      ∧ (lengthAt c.1 (c.2 ++ [0x77])).busy = true ∧ (lengthAt c.1 (c.2 ++ [0x77])).phase = .rxRun
      ∧ (lengthAt c.1 (c.2 ++ [0x77])).waiting = false ∧ (lengthAt c.1 (c.2 ++ [0x77])).cancel = false
      ∧ (lengthAt c.1 (c.2 ++ [0x77])).rxsm = .readLength
      ∧ (lengthAt c.1 (c.2 ++ [0x77])).rx = c.2 ++ [0x77] ∧ c.2 ≠ [] ∧ c.2.length ≤ ready.read
      ∧ (be32enc (lengthAt c.1 (c.2 ++ [0x77])).lenAcc).drop c.2.length ++ c.2 = be32enc 8192
      ∧ (lengthAt c.1 (c.2 ++ [0x77])).lenCount.toNat + c.2.length = 4 := by decide

/-- The same states, the answers standing in them. -/
theorem witness_ResponseHeaderGivesTheLength :
    ∀ c ∈ [((0 : BitVec 3), ([0x00, 0x00, 0x20, 0x00] : List Byte)), (2, [0x20, 0x00]), (3, [0x00])],
      (lengthAt c.1 (c.2 ++ [0x77])).busy = true ∧ (lengthAt c.1 (c.2 ++ [0x77])).phase = .rxRun
      ∧ (lengthAt c.1 (c.2 ++ [0x77])).waiting = false ∧ (lengthAt c.1 (c.2 ++ [0x77])).cancel = false
      ∧ (lengthAt c.1 (c.2 ++ [0x77])).rxsm = .readLength
      ∧ (lengthAt c.1 (c.2 ++ [0x77])).rx = c.2 ++ [0x77] ∧ c.2 ≠ []
      ∧ c.2.length ≤ (lengthAt c.1 (c.2 ++ [0x77])).answers.read
      ∧ (be32enc (lengthAt c.1 (c.2 ++ [0x77])).lenAcc).drop c.2.length ++ c.2 = be32enc 8192
      ∧ (lengthAt c.1 (c.2 ++ [0x77])).lenCount.toNat + c.2.length = 4 := by decide

theorem witness_StartWhileBusyFaults :
    (withMove .start midSink).cfg.valid = true ∧ (withMove .start midSink).agenda = [.start]
      ∧ (withMove .start midSink).busy = true := by decide

/-- V9 to V11, V12, V14, V15, V17, V18 and V16: one descriptor for each clause. -/
theorem witness_InvalidDescriptorEndsIllegal :
    (withMove .start idle).cfg.valid = true ∧ (withMove .start idle).agenda = [.start]
      ∧ (withMove .start idle).busy = false
      ∧ (0x0000000000000000 : Desc).extractLsb' 0 3 = 0 ∧ (0x0000000000000006 : Desc).extractLsb' 0 3 = 6
      ∧ (0x0000000000000007 : Desc).extractLsb' 0 3 = 7
      ∧ ((0x0000000000000109 : Desc).extractLsb' 0 3 = 1
        ∧ (0x0000000000000109 : Desc) &&& 0xFFFFFFFFFFFF00F8 ≠ 0)
      ∧ ((0x0000000000000102 : Desc).extractLsb' 0 3 = 2
        ∧ (0x0000000000000102 : Desc) &&& 0xFFFFFFFFFFFFFFF8 ≠ 0)
      ∧ ((0x0000000900200103 : Desc).extractLsb' 0 3 = 3
        ∧ (0x0000000900200103 : Desc) &&& 0x000000000000FFF8 ≠ 0)
      ∧ ((0x0000044C00010004 : Desc).extractLsb' 0 3 = 4
        ∧ (0x0000044C00010004 : Desc) &&& 0x00000000FFFFFFF8 ≠ 0)
      ∧ ((0x0000004000000405 : Desc).extractLsb' 0 3 = 5
        ∧ (0x0000004000000405 : Desc) &&& 0x00000000FFFFFFF8 ≠ 0)
      ∧ ((0x0000000120010003 : Desc).extractLsb' 0 3 = 3
        ∧ idle.cfg.bufSize < ((0x0000000120010003 : Desc).extractLsb' 16 16).toNat) := by decide

theorem witness_IdleBlockTakesNoStep :
    (turn ready idle).cfg.valid = true ∧ (turn ready idle).agenda = [.block ready]
      ∧ (turn ready idle).busy = false := by decide

/-- A wait that is over and one that lasts a tick more. -/
theorem witness_WaitEndsAtWake :
    ∀ w ∈ [120, 121],
      (turn ready { midBuf with waiting := true, wake := w }).cfg.valid = true
      ∧ (turn ready { midBuf with waiting := true, wake := w }).agenda = [.block ready]
      ∧ (turn ready { midBuf with waiting := true, wake := w }).busy = true
      ∧ isIterating (turn ready { midBuf with waiting := true, wake := w }).phase = true
      ∧ (turn ready { midBuf with waiting := true, wake := w }).waiting = true := by decide

theorem witness_OperationsNeverOverlap :
    midBuf.busy = true ∧ midBuf.phase ≠ .reqSend ∧ midBuf.phase ≠ .rxRun ∧ midBuf.phase ≠ .sinkRun
      ∧ midBuf.phase ≠ .sendFetch ∧ midBuf.phase ≠ .sendWrite
      ∧ midSink.busy = true ∧ midSink.phase ≠ .bufRun := by decide

theorem witness_BadConfigurationRefused :
    ({ Config.reference with tTimeout := 0 } : Config).tTimeout = 0
      ∧ ({ Config.reference with bufSize := 31 } : Config).bufSize < 32
      ∧ 65535 < ({ Config.reference with bufSize := 65536 } : Config).bufSize := by decide

/-- Seven bytes accepted, and six. -/
theorem witness_RequestSendsItsFrame :
    idle.busy = false ∧ (running .reqSend).busy = true ∧ (running .reqSend).phase = .reqSend
      ∧ (running .reqSend).waiting = false
      ∧ min 7 ready.write = 7 ∧ min 7 (⟨0, 6, 0, 0⟩ : Answers).write = 6 := by decide

theorem witness_FramesGoOnTheWire :
    (Instr.frameGetRamSize, (0xF0 : Byte)) ∈ [(Instr.frameReadHeader, (0x01 : Byte)),
        (.frameReadRom, 0x02), (.frameReadRam, 0x03), (.frameWriteRam, 0x04), (.frameGetRamSize, 0xF0)]
      ∧ isReservedCommand 0x00 = true ∧ isReservedCommand 0xFF = true
      ∧ (running .reqSend).busy = true ∧ (running .reqSend).phase = .reqSend
      ∧ (running .reqSend).waiting = false ∧ (running .reqSend).cmdR = 0x00
      ∧ ({ running .reqSend with cmdR := 0xF0 } : State).cmdR = 0xF0 := by decide

/-- An idle block, and a REQUEST of another command. -/
theorem witness_NoFrameOutsideRequest :
    ¬ (idle.busy = true ∧ idle.phase = .reqSend ∧ idle.cmdR = 0x02)
      ∧ ¬ ((running .reqSend).busy = true ∧ (running .reqSend).phase = .reqSend
        ∧ (running .reqSend).cmdR = 0x02) := by decide

theorem witness_RecvLenStarts : idle.busy = false := by decide

theorem witness_SeekDleTakesOneByte :
    ∀ b ∈ ([0x10, 0x55] : List Byte),
      (receiving .seekDle [b, 0x02]).busy = true ∧ (receiving .seekDle [b, 0x02]).phase = .rxRun
      ∧ (receiving .seekDle [b, 0x02]).waiting = false ∧ (receiving .seekDle [b, 0x02]).cancel = false
      ∧ (receiving .seekDle [b, 0x02]).rxsm = .seekDle ∧ (receiving .seekDle [b, 0x02]).rx = b :: [0x02]
      ∧ 1 ≤ (receiving .seekDle [b, 0x02]).answers.read := by decide

/-- The three clauses; a second DLE is at the edge of the last two. -/
theorem witness_SeekStxDecides :
    (∀ b ∈ ([0x02, 0x10, 0x55] : List Byte),
      (receiving .seekStx [b, 0x02]).busy = true ∧ (receiving .seekStx [b, 0x02]).phase = .rxRun
      ∧ (receiving .seekStx [b, 0x02]).waiting = false ∧ (receiving .seekStx [b, 0x02]).cancel = false
      ∧ (receiving .seekStx [b, 0x02]).rxsm = .seekStx ∧ (receiving .seekStx [b, 0x02]).rx = b :: [0x02]
      ∧ 1 ≤ (receiving .seekStx [b, 0x02]).answers.read)
    ∧ (receiving .seekStx []).cfg.resyncOnBadStx = false
    ∧ ({ Config.reference with resyncOnBadStx := true } : Config).resyncOnBadStx = true := by decide

/-- Three bytes of four, and all four. -/
theorem witness_ReadLengthAccumulates :
    ∀ c ∈ [(3, ([0x00, 0x00, 0x20] : List Byte)), (4, [0x00, 0x00, 0x20, 0x00])],
      (running .rxRun).busy = true ∧ (running .rxRun).waiting = false ∧ (running .rxRun).cancel = false
      ∧ c.2 = (receiving .readLength [0x00, 0x00, 0x20, 0x00, 0x77]).rx.take
          (min (4 - (receiving .readLength []).lenCount.toNat) c.1) ∧ c.2 ≠ []
      ∧ ((receiving .readLength []).lenCount.toNat + c.2.length < 4 ∨
        (receiving .readLength []).lenCount.toNat + c.2.length = 4) := by decide

/-- In each receive state, at the deadline and one tick before it. -/
theorem witness_RecvLenZeroRead :
    ∀ r ∈ [RxState.seekDle, .seekStx, .readLength], ∀ n ∈ [2999, 3000],
      ({ receiving r [] with now := n } : State).busy = true
      ∧ ({ receiving r [] with now := n } : State).waiting = false
      ∧ ({ receiving r [] with now := n } : State).cancel = false
      ∧ ({ receiving r [] with now := n } : State).rx.take (min (if r = .readLength then 4 else 1) 512) = []
      ∧ (3000 ≤ n ∨ n < 3000) ∧ ({ receiving r [] with now := n } : State).deadline = 3000 := by decide

theorem witness_RecvLenCancelled :
    ({ receiving .seekStx [0x02] with cancel := true } : State).busy = true
      ∧ ({ receiving .seekStx [0x02] with cancel := true } : State).phase = .rxRun
      ∧ ({ receiving .seekStx [0x02] with cancel := true } : State).waiting = false
      ∧ ({ receiving .seekStx [0x02] with cancel := true } : State).cancel = true := by decide

/-- One byte too few in the receive buffer, and one too few taken by the read. -/
theorem witness_NoHeaderOutsideReadLength :
    idle.busy = false ∧ midBuf.phase ≠ .rxRun ∧ (receiving .seekDle []).rxsm ≠ .readLength
      ∧ (receiving .readLength [0x00, 0x00, 0x20]).rx.length
        < 4 - (receiving .readLength [0x00, 0x00, 0x20]).lenCount.toNat
      ∧ ({ receiving .readLength [0x00, 0x00, 0x20, 0x00] with answers := ⟨3, 0, 0, 0⟩ } : State).answers.read
        < 4 - (receiving .readLength []).lenCount.toNat := by decide

/-- Each clause at its bound. -/
theorem witness_RecvBufStarts :
    idle.busy = false ∧ idle.cfg.bufSize < (8193 : BitVec 16).toNat
      ∧ ((8192 : BitVec 16).toNat ≤ idle.cfg.bufSize ∧ (8192 : BitVec 16).toNat < (8193 : U32).toNat)
      ∧ (0 : BitVec 16).toNat ≤ idle.cfg.bufSize
      ∧ ((8192 : U32) ≠ 0 ∧ (8192 : U32).toNat ≤ (8192 : BitVec 16).toNat) := by decide

/-- The guard (in a state no run reaches), a read that leaves a byte to come, and the last read. -/
theorem witness_RecvBufCommitsARead :
    (midBuf.busy = true ∧ midBuf.phase = .bufRun ∧ midBuf.waiting = false ∧ midBuf.cancel = false)
      ∧ midBuf.rx.take (min midBuf.remaining.toNat 5) = [0x43, 0x13, 0x02, 0x00, 0x01]
      ∧ midBuf.rx.take (min midBuf.remaining.toNat 512) = [0x43, 0x13, 0x02, 0x00, 0x01, 0x01]
      ∧ midBuf.offset.toNat + 6 ≤ midBuf.capacityR.toNat ∧ 5 < midBuf.remaining.toNat
      ∧ 6 = midBuf.remaining.toNat
      ∧ ({ midBuf with capacityR := 8 } : State).capacityR.toNat < midBuf.offset.toNat + 6 := by decide

theorem witness_RecvSinkStarts : idle.busy = false ∧ (1 : U32) ≠ 0 := by decide

/-- A short append, a read that leaves a byte to come, and the last read. -/
theorem witness_RecvSinkAppendsARead :
    (midSink.busy = true ∧ midSink.phase = .sinkRun ∧ midSink.waiting = false ∧ midSink.cancel = false)
      ∧ midSink.rx.take (min (min midSink.remaining.toNat midSink.cfg.chunkRx) 512) = [0x03, 0x04, 0x05]
      ∧ midSink.rx.take (min (min midSink.remaining.toNat midSink.cfg.chunkRx) 2) = [0x03, 0x04]
      ∧ min 3 2 < 3 ∧ min 2 512 = 2 ∧ 2 < midSink.remaining.toNat ∧ 3 = midSink.remaining.toNat := by
  decide

/-- Each operation, at the deadline and before it. -/
theorem witness_BulkZeroTransfer :
    ({ midBuf with rx := [] } : State).rx.take (min midBuf.remaining.toNat 512) = []
      ∧ ({ midSink with rx := [] } : State).rx.take (min (min midSink.remaining.toNat 512) 512) = []
      ∧ (⟨0, 0, 0, 0⟩ : Answers).write = 0
      ∧ (∀ j, midWrite.txcPos.toNat ≤ j → j < midWrite.txcLen.toNat → (midWrite.txc.read j).isSome = true)
      ∧ [midBuf, midSink, midWrite].map (fun s => (s.busy, s.waiting, s.cancel))
        = List.replicate 3 (true, false, false)
      ∧ midBuf.now < midBuf.deadline ∧ ({ midBuf with now := 3100 } : State).deadline ≤ 3100 := by
  refine ⟨by decide, by decide, by decide, ?_, by decide, by decide, by decide⟩
  have h : ∀ j < midWrite.txcLen.toNat, (midWrite.txc.read j).isSome = true := by decide
  exact fun j _ hj => h j hj

theorem witness_BulkCancelled :
    [midBuf, midSink, midFetch, midWrite].map
        (fun s => (s.busy, s.waiting, ({ s with cancel := true } : State).cancel))
      = List.replicate 4 (true, false, true)
      ∧ midBuf.phase = .bufRun ∧ midSink.phase = .sinkRun
      ∧ (midFetch.phase = .sendFetch ∧ midFetch.remaining ≠ 0) ∧ midWrite.phase = .sendWrite := by decide

theorem witness_SendStarts : idle.busy = false ∧ (1 : U32) ≠ 0 := by decide

/-- Nothing left; a source one byte short; a whole chunk. -/
theorem witness_SendFetchesAChunk :
    (midFetch.busy = true ∧ midFetch.phase = .sendFetch ∧ midFetch.waiting = false)
      ∧ min midFetch.cfg.chunkTx midFetch.remaining.toNat = 4
      ∧ ({ midFetch with remaining := 0 } : State).remaining = 0
      ∧ (midFetch.remaining ≠ 0 ∧ midFetch.cancel = false)
      ∧ ((midFetch.source.drop midFetch.sourcePos).take (min 4 3)).length < 4
      ∧ ((midFetch.source.drop midFetch.sourcePos).take (min 4 512)).length = 4 := by decide

/-- Two of three bytes, and all three. -/
theorem witness_SendWritesTheChunk :
    (midWrite.busy = true ∧ midWrite.phase = .sendWrite ∧ midWrite.waiting = false
      ∧ midWrite.cancel = false)
      ∧ ([0xA1, 0xA2, 0xA3] : List Byte).length = midWrite.txcLen.toNat - midWrite.txcPos.toNat
      ∧ (∀ j < 3, midWrite.txc.read (midWrite.txcPos.toNat + j) = ([0xA1, 0xA2, 0xA3] : List Byte)[j]?)
      ∧ 0 < min 3 2 ∧ min 3 2 < 3 ∧ min 3 512 = 3 ∧ 3 ≤ midWrite.remaining.toNat := by decide

theorem witness_ResetStepWritesTheRegisters :
    (withMove .reset midWrite).cfg.valid = true ∧ (withMove .reset midWrite).agenda = [.reset] := by decide

/-- A read that ends one byte past the buffer, one of written bytes, and one that meets an unwritten
byte after a written one. -/
theorem witness_HostReadsOnlyWrittenBytes :
    midBuf.cfg.valid = true ∧ (withMove (.readBuf 2 2) midBuf).agenda = [.readBuf 2 2]
      ∧ midBuf.cfg.bufSize < 8191 + 2
      ∧ (0 + 3 ≤ midBuf.cfg.bufSize ∧ ∀ k < 3, (midBuf.buf.read (0 + k)).isSome = true)
      ∧ (2 + 2 ≤ midBuf.cfg.bufSize ∧ midBuf.buf.read (2 + 1) = none
        ∧ ∀ j < 1, (midBuf.buf.read (2 + j)).isSome = true) := by decide

theorem witness_HostReadsTheEncodedRegisters :
    (withMove (.readReg .rxsm) midBuf).cfg.valid = true
      ∧ (withMove (.readReg .rxsm) midBuf).agenda = [.readReg .rxsm] := by decide

theorem witness_HostProgramStopsAtFailure :
    (withMove .nextLine { midBuf with program := [⟨.recvLen, false⟩] }).cfg.valid = true
      ∧ (withMove .nextLine midBuf).agenda = [.nextLine] ∧ midBuf.busy = true ∧ idle.busy = false
      ∧ (⟨.recvLen, false⟩ : Line).always = false ∧ idle.status ≠ .ok
      ∧ ({ idle with status := .ok } : State).status = .ok ∧ (⟨.recvLen, true⟩ : Line).always = true := by
  decide

theorem witness_TimeNeverDecreases : ∃ t, step (withMove (.tick 5) idle) = .next t ∧ t.now ≠ idle.now :=
  ⟨{ idle with now := 5 }, rfl, by decide⟩

/-- The turn of the block in each operation. -/
theorem witness_BlockLeavesTheRestAlone :
    ∀ s ∈ [idle, receiving .seekDle [0x55], midBuf, midSink, midFetch, midWrite],
      (turn ready s).agenda = [.block ready] ∧ (nextState (step (turn ready s))).isSome = true := by decide

theorem witness_ReadsTakeNoMoreThanAsked :
    (turn ready midSink).agenda = [.block ready] ∧ (nextState (step (turn ready midSink))).isSome = true
      ∧ (turn ready midSink).phase ≠ .reqSend := by decide

theorem witness_BufWritesStayBelowCapacity :
    (turn ready midBuf).agenda = [.block ready] ∧ (nextState (step (turn ready midBuf))).isSome = true
      ∧ midSink.phase ≠ .bufRun ∧ midBuf.capacityR.toNat ≤ 32 := by decide

/-- A step that ends RECV_LEN with a new `RESULT_LEN`. -/
theorem witness_ResultLenOnlyOnSuccess :
    (lengthAt 3 [0x00]).agenda = [.block ready]
      ∧ view (fun t => t.resultLen) (step (lengthAt 3 [0x00])) = some 8192
      ∧ (lengthAt 3 [0x00]).resultLen ≠ 8192 ∧ midBuf.phase ≠ .rxRun := by decide

theorem witness_DoneExactlyWhenBusyFalls :
    (turn ready midBuf).agenda = [.block ready] ∧ (turn ready midBuf).busy = true
      ∧ view (fun t => t.events.count .done) (step (turn ready midBuf)) = some 1
      ∧ view (fun t => t.events.count .done) (step (turn ready midWrite)) = some 0 := by decide

theorem witness_DescriptorNotReadWhileRunning : (turn ready midBuf).agenda = [.block ready] := by decide

theorem witness_ProgressCountNotRead : (turn ready midBuf).agenda = [.block ready] := by decide

theorem witness_StepKeepsInv : Inv midBuf ∧ ∃ t, step midBuf = .next t :=
  ⟨inv_midBuf, midBuf, rfl⟩

theorem witness_OnlyTheHostCanFault :
    Inv midBuf ∧ midBuf.cfg.valid = true ∧ hostKeepsContract (withMove .start idle) = true
      ∧ hostKeepsContract (withMove (.readBuf 0 3) midBuf) = true
      ∧ hostKeepsContract (turn ready midWrite) = true :=
  ⟨inv_midBuf, by decide, by decide, by decide, by decide⟩

theorem witness_BulkCountersAddUp :
    Inv midSink ∧ (turn ⟨3, 0, 1, 0⟩ midSink).agenda = [.block ⟨3, 0, 1, 0⟩] ∧ isBulk midSink.phase = true
      ∧ view (fun t => t.status) (step (turn ⟨3, 0, 1, 0⟩ midSink)) = some .sinkWrite
      ∧ view (fun t => t.status) (step (turn ready midSink)) = some .ok
      ∧ view (fun t => t.status) (step (turn ready { midSink with cancel := true })) = some .shortTransfer :=
  ⟨inv_midSink, by decide, by decide, by decide, by decide, by decide⟩

/-- In each receive state, with a part of the header still to arrive. -/
theorem witness_SearchKeepsTheHeader :
    Inv (receiving .seekDle [0x55, 0x10]) ∧ (running .rxRun).cfg.valid = true
      ∧ (turn ready (receiving .seekDle [])).agenda = [.block ready]
      ∧ (running .rxRun).phase = .rxRun ∧ (running .rxRun).cancel = false
      ∧ (running .rxRun).now < (running .rxRun).deadline ∧ (0x10 : Byte) ∉ ([0x55] : List Byte)
      ∧ headerStream (receiving .seekDle [0x55, 0x10]) ++ [0x02, 0x00, 0x00, 0x20, 0x00, 0x77]
        = [0x55] ++ [0x10, 0x02] ++ be32enc 8192 ++ [0x77]
      ∧ headerStream (receiving .seekStx [0x02]) ++ [0x00, 0x00, 0x20, 0x00]
        = [] ++ [0x10, 0x02] ++ be32enc 8192 ++ []
      ∧ headerStream { receiving .readLength [0x20, 0x00] with lenCount := 2 } ++ []
        = [] ++ [0x10, 0x02] ++ be32enc 8192 ++ [] :=
  ⟨inv_seekDle, by decide, by decide, by decide, by decide, by decide, by decide, by decide, by decide,
    by decide⟩

/-- Answers of one byte, `n` times. -/
def oneByOne (n : Nat) : List Answers := List.replicate n ⟨1, 1, 1, 1⟩

theorem witness_RecvLenFindsTheHeader :
    (running .rxRun).cfg.valid = true ∧ (running .rxRun).busy = true ∧ (running .rxRun).waiting = false
      ∧ (running .rxRun).cancel = false ∧ (running .rxRun).rxsm = .seekDle
      ∧ (0x10 : Byte) ∉ ([0x55, 0xAA] : List Byte)
      ∧ (receiving .seekDle [0x55, 0xAA, 0x10, 0x02, 0x00, 0x00, 0x01, 0x00, 0x77]).rx
        = [0x55, 0xAA] ++ [0x10, 0x02] ++ be32enc 256 ++ [0x77]
      ∧ (∀ x ∈ oneByOne 8, 1 ≤ x.read)
      ∧ ([0x55, 0xAA] : List Byte).length + 6 ≤ (oneByOne 8).length := by decide

theorem witness_RecvBufDeliversThePayload :
    Inv midBuf ∧ midBuf.cfg.valid = true ∧ midBuf.phase = .bufRun ∧ midBuf.waiting = false
      ∧ midBuf.cancel = false
      ∧ ([0x43, 0x13, 0x02, 0x00, 0x01, 0x01] : List Byte).length = midBuf.remaining.toNat
      ∧ midBuf.rx = [0x43, 0x13, 0x02, 0x00, 0x01, 0x01] ++ [] ∧ (∀ x ∈ oneByOne 6, 1 ≤ x.read)
      ∧ midBuf.remaining.toNat ≤ (oneByOne 6).length :=
  ⟨inv_midBuf, by decide, by decide, by decide, by decide, by decide, by decide, by decide, by decide⟩

theorem witness_RecvSinkDeliversThePayload :
    Inv midSink ∧ midSink.cfg.valid = true ∧ midSink.phase = .sinkRun ∧ midSink.waiting = false
      ∧ midSink.cancel = false ∧ ([0x03, 0x04, 0x05] : List Byte).length = midSink.remaining.toNat
      ∧ midSink.rx = [0x03, 0x04, 0x05] ++ [0x99]
      ∧ (∀ x ∈ List.replicate 3 ready, 1 ≤ x.read ∧ midSink.cfg.chunkRx ≤ x.sink)
      ∧ midSink.remaining.toNat ≤ (List.replicate 3 ready).length :=
  ⟨inv_midSink, by decide, by decide, by decide, by decide, by decide, by decide, by decide, by decide⟩

/-- Before the fetch, and in the middle of the chunk. -/
theorem witness_SendStreamsTheSource :
    Inv midFetch ∧ SendStream [] 0 midFetch ∧ Inv midWrite ∧ SendStream [] 0 midWrite
      ∧ (nextState (step (turn ready midWrite))).isSome = true :=
  ⟨inv_midFetch, by constructor <;> decide, inv_midWrite, by constructor <;> decide, by decide⟩

/-- A RECV_LEN 15 ticks before its deadline: two poll intervals; and one at its deadline: none. -/
theorem witness_StallEndsAtTheDeadline :
    Inv { receiving .seekDle [] with deadline := 15, agenda := stallMoves 10 2 }
      ∧ (running .rxRun).cfg.valid = true ∧ (running .rxRun).waiting = false
      ∧ (running .rxRun).cancel = false ∧ (running .rxRun).cfg.pPollRx = 10
      ∧ (15 - 0 + 10 - 1) / 10 = 2 ∧ (15 - 15 + 10 - 1) / 10 = 0
      ∧ ({ receiving .seekDle [] with deadline := 15, agenda := stallMoves 10 2 } : State).agenda
        = stallMoves 10 2 :=
  ⟨by constructor <;> decide, by decide, by decide, by decide, by decide, by decide, by decide, rfl⟩

/-- Each phase, and SEND with nothing left. -/
theorem witness_CancellationEndsTheOperation :
    ∀ s ∈ [receiving .seekDle [], midBuf, midSink, midFetch, { midFetch with remaining := 0 }, midWrite],
      (turn ready { s with cancel := true }).cfg.valid = true
      ∧ (turn ready { s with cancel := true }).agenda = [.block ready]
      ∧ (turn ready { s with cancel := true }).busy = true
      ∧ isIterating (turn ready { s with cancel := true }).phase = true
      ∧ (turn ready { s with cancel := true }).waiting = false
      ∧ (turn ready { s with cancel := true }).cancel = true := by decide

end Sys2Proof.Tests
end

section
/-! PROOFS. The family of 00_scope.md: byte order (R12), what a step runs (R5, R6, R130), the end of a
wait (R11, R29) and the refusal of a bad configuration (R8, R279). -/

namespace Sys2Proof.Machine

/-! ## Byte order (R12, R25) -/

/-- R12: four bytes never exceed a `u32`, so the big-endian decode is their weighted sum exactly. -/
theorem be32_toNat (b0 b1 b2 b3 : Byte) :
    (be32 b0 b1 b2 b3).toNat
      = b0.toNat * 2 ^ 24 + b1.toNat * 2 ^ 16 + b2.toNat * 2 ^ 8 + b3.toNat := by
  have h0 := b0.isLt
  have h1 := b1.isLt
  have h2 := b2.isLt
  have h3 := b3.isLt
  simp only [be32, BitVec.toNat_ofNat]
  exact Nat.mod_eq_of_lt (by omega)

/-- A byte cut out of a `u32`, as arithmetic. -/
theorem byteOf_toNat (v : U32) (k : Nat) : (v.extractLsb' k 8).toNat = v.toNat / 2 ^ k % 256 := by
  rw [BitVec.extractLsb'_toNat, Nat.shiftRight_eq_div_pow]

/-- R12: the decode undoes the encode. -/
theorem be32_bytes (v : U32) :
    be32 (v.extractLsb' 24 8) (v.extractLsb' 16 8) (v.extractLsb' 8 8) (v.extractLsb' 0 8) = v := by
  apply BitVec.eq_of_toNat_eq
  have hv := v.isLt
  simp only [be32_toNat, byteOf_toNat]
  omega

@[simp] theorem be32enc_length (v : U32) : (be32enc v).length = 4 := rfl

/-- R12: different values have different bytes, since the decode undoes the encode. -/
theorem be32enc_injective {v w : U32} (h : be32enc v = be32enc w) : v = w := by
  simp only [be32enc, List.cons.injEq, and_true] at h
  obtain ⟨h0, h1, h2, h3⟩ := h
  rw [← be32_bytes v, h0, h1, h2, h3, be32_bytes]

/-- R25: a byte shifted into the accumulator from the right drops the leftmost of its bytes. -/
theorem be32enc_shiftIn (acc : U32) (b : Byte) :
    be32enc (BitVec.ofNat 32 (acc.toNat * 256 + b.toNat)) = (be32enc acc ++ [b]).drop 1 := by
  have ha := acc.isLt
  have hb := b.isLt
  simp only [be32enc, List.cons_append, List.nil_append, List.drop_succ_cons, List.drop_zero,
    List.cons.injEq, and_true]
  refine ⟨?_, ?_, ?_, ?_⟩ <;> apply BitVec.eq_of_toNat_eq <;>
    simp only [byteOf_toNat, BitVec.toNat_ofNat] <;> omega

/-- R25, R157: the accumulator holds the last four of its old bytes and the bytes shifted in. -/
theorem be32enc_accumulate (bs : List Byte) (acc : U32) :
    be32enc (accumulate acc bs) = (be32enc acc ++ bs).drop bs.length := by
  induction bs generalizing acc with
  | nil => simp [accumulate]
  | cons b bs ih =>
    calc be32enc (accumulate acc (b :: bs))
        = (be32enc (BitVec.ofNat 32 (acc.toNat * 256 + b.toNat)) ++ bs).drop bs.length := ih _
      _ = ((be32enc acc ++ b :: bs).drop 1).drop bs.length := by rw [be32enc_shiftIn]; rfl
      _ = (be32enc acc ++ b :: bs).drop (b :: bs).length := by
        rw [List.drop_drop, List.length_cons, Nat.add_comm]

/-- Settles O6: the decode is exact and undoes the encode. -/
theorem bigEndianRoundTrip : Obligations.BigEndianRoundTrip :=
  ⟨be32_toNat, fun v => ⟨rfl, be32_bytes v⟩⟩

/-! ## Frames and headers decode to themselves (R92, R133 to R135) -/

/-- R133: a request frame decodes to the row of its command. -/
theorem decode_frame (c : Byte) : decode (.wire (frame c)) = .ok (frameInstr c) := rfl

/-- R134, R135: a response header decodes to the length it announces. -/
theorem decode_header (n : U32) : decode (.wire (header n)) = .ok (.responseHeader n) :=
  congrArg (fun v => Except.ok (Instr.responseHeader v)) (be32_bytes n)

/-! ## The step and its move (R5, R279) -/

theorem step_start {s : State} {rest : List Move} (hv : s.cfg.valid = true)
    (ha : s.agenda = .start :: rest) : step s = startStep { s with agenda := rest } := by
  simp only [step, hv, ha, if_true, move]

theorem step_block {s : State} {a : Answers} {rest : List Move} (hv : s.cfg.valid = true)
    (ha : s.agenda = .block a :: rest) :
    step s = blockStep { s with agenda := rest, answers := a } := by
  simp only [step, hv, ha, if_true, move]

theorem step_invalid {s : State} (hv : s.cfg.valid = false) :
    step s = .refused .badConfiguration := by
  simp [step, hv]

/-- R8, one bound after another. -/
theorem config_valid_iff (c : Config) :
    c.valid = true ↔ 1 ≤ c.tTimeout ∧ 1 ≤ c.pPollRx ∧ 1 ≤ c.pPollBulk ∧ 1 ≤ c.dThrottle
      ∧ 1 ≤ c.chunkRx ∧ 1 ≤ c.chunkTx ∧ 32 ≤ c.bufSize ∧ c.bufSize ≤ 65535 := by
  simp only [Config.valid, Bool.and_eq_true, decide_eq_true_eq, and_assoc]

/-- Settles O17: a configuration that misses one bound of R8 is not valid. -/
theorem badConfigurationRefused : Obligations.BadConfigurationRefused := by
  intro s hbad
  apply step_invalid
  rw [Bool.eq_false_iff, Ne, config_valid_iff]
  omega

/-! ## The block step of each operation (R6) -/

theorem exec_recvLen (s : State) :
    exec .recvLen s = operationStep (fun s => .next (recvLenStart s))
      (fun s => .next (recvLenIterate s)) (fun p => p == .rxRun) s := rfl

theorem exec_recvBuf (capacity : BitVec 16) (length : U32) (s : State) :
    exec (.recvBuf capacity length) s
      = operationStep (fun s => .next (recvBufStart capacity length s))
          (fun s => .next (recvBufIterate s)) (fun p => p == .bufRun) s := rfl

theorem exec_recvSink (length : U32) (s : State) :
    exec (.recvSink length) s = operationStep (fun s => .next (recvSinkStart length s))
      (fun s => .next (recvSinkIterate s)) (fun p => p == .sinkRun) s := rfl

theorem exec_send (length : U32) (s : State) :
    exec (.send length) s = operationStep (fun s => .next (sendStart length s))
      (fun s => if s.phase = .sendFetch then .next (sendFetchIterate s) else sendWriteIterate s)
      (fun p => p == .sendFetch || p == .sendWrite) s := rfl

/-! ## The completed response header (R93, R157) -/

/-- The bytes already accumulated and a read of all the missing ones are the bytes of the accumulator
after that read. -/
theorem lengthBytes_append {s : State} {bs : List Byte}
    (h : s.lenCount.toNat + bs.length = 4) :
    lengthBytes s ++ bs = be32enc (accumulate s.lenAcc bs) := by
  rw [be32enc_accumulate, List.drop_append_of_le_length (by rw [be32enc_length]; omega),
    lengthBytes, show 4 - s.lenCount.toNat = bs.length by omega]

/-- R152: in `READ_LENGTH` the read asks for the missing length bytes. -/
theorem rxAsk_readLength {s : State} (h : s.rxsm = .readLength) :
    rxAsk s = 4 - s.lenCount.toNat := if_pos h

/-- The header is completed exactly by an iteration in `READ_LENGTH` that reads all the bytes still
missing, and it then announces the accumulator's value after that read. -/
theorem completedHeader_eq_some {s : State} {h : List Byte} :
    completedHeader s = some h ↔
      (s.busy = true ∧ s.phase = .rxRun ∧ s.waiting = false ∧ s.cancel = false
        ∧ s.rxsm = .readLength)
      ∧ (transportRead (rxAsk s) s).1 ≠ []
      ∧ s.lenCount.toNat + (transportRead (rxAsk s) s).1.length = 4
      ∧ h = header (accumulate s.lenAcc (transportRead (rxAsk s) s).1) := by
  by_cases hrun : s.busy = true ∧ s.phase = .rxRun ∧ s.waiting = false ∧ s.cancel = false
      ∧ s.rxsm = .readLength
  · obtain ⟨hb, hp, hw, hc, hx⟩ := hrun
    have hask := rxAsk_readLength hx
    generalize hr : (transportRead (rxAsk s) s).1 = bs
    have hall : (0 < rxAsk s ∧ bs.length = rxAsk s)
        ↔ (bs ≠ [] ∧ s.lenCount.toNat + bs.length = 4) := by
      rw [← List.length_pos_iff]
      omega
    simp only [completedHeader, hb, hp, hw, hc, hx, hr, hall, beq_self_eq_true, Bool.not_false,
      Bool.and_self, if_true, true_and]
    by_cases hdone : bs ≠ [] ∧ s.lenCount.toNat + bs.length = 4
    · rw [if_pos hdone, lengthBytes_append hdone.2]
      simp [header, hdone, eq_comm]
    · rw [if_neg hdone]
      simp only [reduceCtorEq, false_iff]
      exact fun ⟨hne, hlen, _⟩ => hdone ⟨hne, hlen⟩
  · simp only [hrun, false_and, iff_false]
    intro hsome
    unfold completedHeader at hsome
    split at hsome
    · next hguard => exact hrun (by simpa [and_assoc] using hguard)
    · cases hsome

/-- R157: an iteration that reads all the missing length bytes ends with the accumulated length. -/
theorem recvLenIterate_completes {s : State} (hc : s.cancel = false) (hx : s.rxsm = .readLength)
    (hne : (transportRead (rxAsk s) s).1 ≠ [])
    (hlen : s.lenCount.toNat + (transportRead (rxAsk s) s).1.length = 4) :
    recvLenIterate s =
      lengthDone (accumulate s.lenAcc (transportRead (rxAsk s) s).1)
        { setDeadline (transportRead (rxAsk s) s).2 with
          lenAcc := accumulate s.lenAcc (transportRead (rxAsk s) s).1, lenCount := 4 } := by
  obtain ⟨b, bs, hr⟩ := List.exists_cons_of_ne_nil hne
  have hreceive : recvLenIterate s
      = readLength (b :: bs) (setDeadline (transportRead (rxAsk s) s).2) := by
    simp [recvLenIterate, hc, hr, receive, hx]
  rw [hr] at hlen
  rw [hreceive, hr]
  rcases readLength_cases (b :: bs) (setDeadline (transportRead (rxAsk s) s).2) with
    ⟨_, e⟩ | ⟨hcount, _⟩
  · simpa using e
  · exact absurd (congrArg (BitVec.ofNat 3) hlen) hcount

/-- R157: the read that completes the header ends RECV_LEN with the length the header announces, so
the header and RECV_LEN are the same step. -/
theorem exec_responseHeader_eq_recvLen {s : State} {n : U32}
    (h : completedHeader s = some (header n)) :
    exec (.responseHeader n) s = exec .recvLen s := by
  obtain ⟨⟨hb, hp, hw, hc, hx⟩, hne, hlen, hh⟩ := completedHeader_eq_some.1 h
  have hn : n = accumulate s.lenAcc (transportRead (rxAsk s) s).1 := be32enc_injective (by
    simpa [header] using hh)
  have hheader : exec (.responseHeader n) s = .next (lengthDone n
      { setDeadline (transportRead (rxAsk s) s).2 with lenAcc := n, lenCount := 4 }) := if_pos h
  have hrecv : exec .recvLen s = .next (recvLenIterate s) := by
    rw [exec_recvLen]
    exact operationStep_iterate hb (by simp [hp]) hw
  rw [hheader, hrecv, recvLenIterate_completes hc hx hne hlen, ← hn]

/-! ## The block's turn runs what it decodes (R6, R22, R80) -/

/-- R130: a start request of an idle block runs the instruction at `DESC`. -/
theorem startStep_decoded {s : State} {i : Instr} (hb : s.busy = false)
    (hd : decode (.descriptor s.desc) = .ok i) : startStep s = exec i s := by
  simp [startStep, hb, fetchStart, hd]

theorem blockStep_fetched {s : State} {i : Instr} (h : fetchRunning s = some i) :
    blockStep s = exec i s := by
  simp only [blockStep, h]

theorem blockStep_reqSend {s : State} (hb : s.busy = true) (hp : s.phase = .reqSend) :
    blockStep s = exec (frameInstr s.cmdR) s :=
  blockStep_fetched (by simp [fetchRunning, hb, hp, decode_frame, Except.toOption])

/-- A turn that completes a response header runs the header. -/
theorem blockStep_completedHeader {s : State} {n : U32}
    (h : completedHeader s = some (header n)) : blockStep s = exec (.responseHeader n) s := by
  obtain ⟨⟨hb, hp, _⟩, _⟩ := completedHeader_eq_some.1 h
  exact blockStep_fetched (by simp [fetchRunning, hb, hp, h, decode_header, Except.toOption])

/-- Every turn of a running RECV_LEN is RECV_LEN's own step, one that completes a header too. -/
theorem blockStep_rxRun {s : State} (hb : s.busy = true) (hp : s.phase = .rxRun) :
    blockStep s = exec .recvLen s := by
  cases hh : completedHeader s with
  | none => exact blockStep_fetched (by simp [fetchRunning, hb, hp, hh])
  | some h =>
    obtain ⟨_, _, _, rfl⟩ := completedHeader_eq_some.1 hh
    rw [blockStep_completedHeader hh, exec_responseHeader_eq_recvLen hh]

theorem blockStep_bufRun {s : State} (hb : s.busy = true) (hp : s.phase = .bufRun) :
    blockStep s = exec (.recvBuf s.capacityR s.total) s :=
  blockStep_fetched (by simp [fetchRunning, hb, hp])

theorem blockStep_sinkRun {s : State} (hb : s.busy = true) (hp : s.phase = .sinkRun) :
    blockStep s = exec (.recvSink s.total) s :=
  blockStep_fetched (by simp [fetchRunning, hb, hp])

theorem blockStep_send {s : State} (hb : s.busy = true)
    (hp : s.phase = .sendFetch ∨ s.phase = .sendWrite) :
    blockStep s = exec (.send s.total) s := by
  rcases hp with hp | hp <;> exact blockStep_fetched (by simp [fetchRunning, hb, hp])

/-- Settles O10, one clause per source of the instruction. -/
theorem stepRunsTheDecodedInstruction : Obligations.StepRunsTheDecodedInstruction := by
  intro s i rest a hv
  refine ⟨fun ha hb hd => ?start, fun ha hb hp hd => ?reqSend, fun ha hb hp => ?rxRun,
    fun ha hb hp => ?bufRun, fun ha hb hp => ?sinkRun, fun ha hb hp => ?send⟩
  case start => exact (step_start hv ha).trans (startStep_decoded hb hd)
  case reqSend =>
    obtain rfl : frameInstr s.cmdR = i := Except.ok.inj ((decode_frame s.cmdR).symm.trans hd)
    exact (step_block hv ha).trans (blockStep_reqSend hb hp)
  case rxRun => exact (step_block hv ha).trans (blockStep_rxRun hb hp)
  case bufRun => exact (step_block hv ha).trans (blockStep_bufRun hb hp)
  case sinkRun => exact (step_block hv ha).trans (blockStep_sinkRun hb hp)
  case send => exact (step_block hv ha).trans (blockStep_send hb hp)

/-- Settles O11: the read of the missing bytes completes the header of the accumulator's new value,
which is `n` because its bytes are those of `n`. -/
theorem stepRunsTheCompletedHeader : Obligations.StepRunsTheCompletedHeader := by
  intro s n rest a bs tail hv ha hb hp hw hc hx hrx hne hread henc hlen
  rw [step_block hv ha]
  apply blockStep_completedHeader
  have hask : rxAsk { s with agenda := rest, answers := a } = bs.length :=
    (rxAsk_readLength hx).trans (show 4 - s.lenCount.toNat = bs.length by omega)
  have hbs : (transportRead bs.length { s with agenda := rest, answers := a }).1 = bs := by
    simp [transportRead, hrx, Nat.min_eq_left hread]
  have hn : n = accumulate s.lenAcc bs := be32enc_injective (by
    rw [← henc, be32enc_accumulate,
      List.drop_append_of_le_length (by rw [be32enc_length]; omega)])
  rw [completedHeader_eq_some, hask, hbs]
  exact ⟨⟨hb, hp, hw, hc, hx⟩, hne, hlen, by rw [hn]⟩

/-! ## The wait (R11, R29) -/

/-- R29: the end of a wait writes `WAITING` by the comparison of `now` with `WAKE`. -/
theorem endWait_eq {s : State} (hw : s.waiting = true) :
    endWait s = { s with waiting := decide (s.now < s.wake) } := by
  rcases endWait_cases s with ⟨h, e⟩ | ⟨h, e⟩
  · rw [e, decide_eq_false (by omega)]
  · rw [e, decide_eq_true h, ← hw]

/-- R11: whichever operation iterates, its turn in a wait can only end the wait. -/
theorem blockStep_waiting {s : State} (hb : s.busy = true) (hi : isIterating s.phase = true)
    (hw : s.waiting = true) :
    blockStep s = .next { s with waiting := decide (s.now < s.wake) } := by
  rw [← endWait_eq hw]
  cases hp : s.phase with
  | idle => simp [hp, isIterating] at hi
  | reqSend => simp [hp, isIterating] at hi
  | rxRun =>
    rw [blockStep_rxRun hb hp, exec_recvLen]
    exact operationStep_waiting hb (by simp [hp]) hw
  | bufRun =>
    rw [blockStep_bufRun hb hp, exec_recvBuf]
    exact operationStep_waiting hb (by simp [hp]) hw
  | sinkRun =>
    rw [blockStep_sinkRun hb hp, exec_recvSink]
    exact operationStep_waiting hb (by simp [hp]) hw
  | sendFetch =>
    rw [blockStep_send hb (.inl hp), exec_send]
    exact operationStep_waiting hb (by simp [hp]) hw
  | sendWrite =>
    rw [blockStep_send hb (.inr hp), exec_send]
    exact operationStep_waiting hb (by simp [hp]) hw

/-- Settles O15: the turn is the end of the wait, which is `WAITING`'s comparison. -/
theorem waitEndsAtWake : Obligations.WaitEndsAtWake := by
  intro s a rest hv ha hb hi hw
  exact (step_block hv ha).trans (blockStep_waiting hb hi hw)

end Sys2Proof.Machine
end

section
/-! PROOFS. The family of 10_state.md, first part: what the block's turn, a start request and the
host's program can do, each said once (R5, R6, R130, R265). -/

namespace Sys2Proof.Machine

/-! ## The block's turn -/

/-- The `iterate:` block of the phase the block is in (R6, R23). -/
def iteration (s : State) : Result :=
  match s.phase with
  | .idle => .next s
  | .reqSend => .next (sendFrame s.cmdR s)
  | .rxRun => .next (recvLenIterate s)
  | .bufRun => .next (recvBufIterate s)
  | .sinkRun => .next (recvSinkIterate s)
  | .sendFetch => .next (sendFetchIterate s)
  | .sendWrite => sendWriteIterate s

/-- R96, R99: every request frame, whichever row of the table it is, is the frame of its command. -/
theorem exec_frameInstr (c : Byte) (s : State) : exec (frameInstr c) s = frameStep c s := by
  unfold frameInstr
  split_ifs <;> subst_vars <;> rfl

theorem frameStep_own {s : State} (hb : s.busy = true) (hp : s.phase = .reqSend) :
    frameStep s.cmdR s = if s.waiting then .next (endWait s) else .next (sendFrame s.cmdR s) := by
  simp [frameStep, hb, hp]

/-- An operation in a phase of its own ends its wait or iterates. -/
theorem operationStep_own {startBlock iterate : State → Result} {own : Phase → Bool} {s : State}
    (hb : s.busy = true) (ho : own s.phase = true) :
    operationStep startBlock iterate own s
      = if s.waiting then .next (endWait s) else iterate s := by
  simp [operationStep, hb, ho]

theorem blockStep_idle {s : State} (h : s.busy = false ∨ s.phase = .idle) :
    blockStep s = .next s := by
  have hnone : fetchRunning s = none := by
    rcases h with hb | hp
    · simp [fetchRunning, hb]
    · simp [fetchRunning, hp]
  simp only [blockStep, hnone]

/-- R6, R11: the turn of a block that runs an operation ends its wait or is its iteration. -/
theorem blockStep_running {s : State} (hb : s.busy = true) (hi : s.phase ≠ .idle) :
    blockStep s = if s.waiting then .next (endWait s) else iteration s := by
  unfold iteration
  cases hp : s.phase with
  | idle => exact absurd hp hi
  | reqSend => rw [blockStep_reqSend hb hp, exec_frameInstr, frameStep_own hb hp]
  | rxRun =>
    rw [blockStep_rxRun hb hp, exec_recvLen, operationStep_own hb (by simp [hp])]
  | bufRun =>
    rw [blockStep_bufRun hb hp, exec_recvBuf, operationStep_own hb (by simp [hp])]
  | sinkRun =>
    rw [blockStep_sinkRun hb hp, exec_recvSink, operationStep_own hb (by simp [hp])]
  | sendFetch =>
    rw [blockStep_send hb (.inl hp), exec_send, operationStep_own hb (by simp [hp]), if_pos hp]
  | sendWrite =>
    rw [blockStep_send hb (.inr hp), exec_send, operationStep_own hb (by simp [hp])]
    simp [hp]

/-- What a turn of the block can lead to. -/
inductive BlockTurn (s : State) : State → Prop
  | idle (h : s.busy = false ∨ s.phase = .idle) : BlockTurn s s
  | wait (hi : s.phase ≠ .idle) (hw : s.waiting = true) : BlockTurn s (endWait s)
  | request (hb : s.busy = true) (hw : s.waiting = false) (hp : s.phase = .reqSend) :
      BlockTurn s (sendFrame s.cmdR s)
  | recvLen (hb : s.busy = true) (hw : s.waiting = false) (hp : s.phase = .rxRun) :
      BlockTurn s (recvLenIterate s)
  | recvBuf (hb : s.busy = true) (hw : s.waiting = false) (hp : s.phase = .bufRun) :
      BlockTurn s (recvBufIterate s)
  | recvSink (hb : s.busy = true) (hw : s.waiting = false) (hp : s.phase = .sinkRun) :
      BlockTurn s (recvSinkIterate s)
  | fetch (hb : s.busy = true) (hw : s.waiting = false) (hp : s.phase = .sendFetch) :
      BlockTurn s (sendFetchIterate s)
  | write {t : State} (hb : s.busy = true) (hw : s.waiting = false) (hp : s.phase = .sendWrite)
      (ht : sendWriteIterate s = .next t) : BlockTurn s t

theorem blockStep_next {s t : State} (h : blockStep s = .next t) : BlockTurn s t := by
  by_cases hidle : s.busy = false ∨ s.phase = .idle
  · rw [blockStep_idle hidle] at h
    cases h
    exact .idle hidle
  · obtain ⟨hb, hi⟩ : s.busy = true ∧ s.phase ≠ .idle := by simpa using hidle
    rw [blockStep_running hb hi] at h
    cases hw : s.waiting with
    | true =>
      simp only [hw, if_true] at h
      cases h
      exact .wait hi hw
    | false =>
      simp only [hw, Bool.false_eq_true, if_false, iteration] at h
      cases hp : s.phase with
      | idle => exact absurd hp hi
      | reqSend => simp only [hp] at h; cases h; exact .request hb hw hp
      | rxRun => simp only [hp] at h; cases h; exact .recvLen hb hw hp
      | bufRun => simp only [hp] at h; cases h; exact .recvBuf hb hw hp
      | sinkRun => simp only [hp] at h; cases h; exact .recvSink hb hw hp
      | sendFetch => simp only [hp] at h; cases h; exact .fetch hb hw hp
      | sendWrite => simp only [hp] at h; exact .write hb hw hp h

/-! ## The start of an operation -/

theorem exec_request (cmd : Byte) (s : State) :
    exec (.request cmd) s = operationStep (fun s => .next (requestStart cmd s))
      (fun s => .next (sendFrame s.cmdR s)) (fun p => p == .reqSend) s := rfl

/-- What a start request of an idle block can lead to (R130, R258). -/
inductive Started (s : State) : State → Prop
  | illegal (op : BitVec 3) : Started s (illegalOp op s)
  | request (cmd : Byte) : Started s (requestStart cmd s)
  | recvLen : Started s (recvLenStart s)
  | recvBuf (capacity : BitVec 16) (length : U32) : Started s (recvBufStart capacity length s)
  | recvSink (length : U32) : Started s (recvSinkStart length s)
  | send (length : U32) : Started s (sendStart length s)

/-- R100, R103: a descriptor stands for one of the five operations only. -/
theorem decodeDesc_isOperation {d : Desc} {i : Instr} (h : decodeDesc d = .ok i) :
    i.isOperation = true := by
  unfold decodeDesc at h
  split at h
  case h_6 => cases h
  all_goals
    split_ifs at h
    cases h
    rfl

/-- R130: every start of an idle block is a step. -/
theorem startStep_idle {s : State} (hb : s.busy = false) :
    ∃ t, startStep s = .next t ∧ Started s t := by
  cases hd : decodeDesc s.desc with
  | error e =>
    exact ⟨_, by simp [startStep, hb, fetchStart, decode, hd], .illegal (descOp s.desc)⟩
  | ok i =>
    rw [startStep_decoded hb hd]
    have hop := decodeDesc_isOperation hd
    cases i with
    | request cmd => exact ⟨_, (exec_request cmd s).trans (operationStep_idle hb), .request cmd⟩
    | recvLen => exact ⟨_, (exec_recvLen s).trans (operationStep_idle hb), .recvLen⟩
    | recvBuf capacity length =>
      exact ⟨_, (exec_recvBuf capacity length s).trans (operationStep_idle hb),
        .recvBuf capacity length⟩
    | recvSink length =>
      exact ⟨_, (exec_recvSink length s).trans (operationStep_idle hb), .recvSink length⟩
    | send length =>
      exact ⟨_, (exec_send length s).trans (operationStep_idle hb), .send length⟩
    | _ => cases hop

/-- R265: only an idle block starts. -/
theorem startStep_next {s t : State} (h : startStep s = .next t) :
    s.busy = false ∧ Started s t := by
  cases hb : s.busy with
  | true => simp [startStep, hb] at h
  | false =>
    obtain ⟨u, hu, hstarted⟩ := startStep_idle hb
    obtain rfl : u = t := by simpa [hu] using h
    exact ⟨rfl, hstarted⟩

/-- R108: the host's program starts a line only while the block is idle. -/
theorem hostTurn_starts {s : State} {line : Line} {rest : List Line}
    (h : hostTurn s = .starts line rest) : s.busy = false := by
  unfold hostTurn at h
  split at h
  · cases h
  · split_ifs at h with hb
    simpa using hb

/-- R108: what a turn of the host's program can lead to: it waits, it stops, or it starts a line. -/
theorem programStep_next {s t : State} (h : programStep s = .next t) :
    t = s ∨ t = { s with program := [] }
      ∨ s.busy = false ∧ ∃ d rest, Started { s with desc := d, program := rest } t := by
  unfold programStep at h
  split at h
  · cases h; exact .inl rfl
  · cases h; exact .inr (.inl rfl)
  · obtain ⟨hb, hstarted⟩ := startStep_next h
    exact .inr (.inr ⟨hb, _, _, hstarted⟩)

/-- R108: a turn of the host's program always is a step. -/
theorem programStep_completes (s : State) : ∃ t, programStep s = .next t := by
  unfold programStep
  split
  · exact ⟨_, rfl⟩
  · exact ⟨_, rfl⟩
  · next line rest hturn =>
    have hb : s.busy = false := hostTurn_starts hturn
    obtain ⟨t, ht, _⟩ := startStep_idle
      (s := { s with desc := lineDesc s.resultLen line.op, program := rest }) hb
    exact ⟨t, ht⟩

/-! ## The bytes a bulk transfer moves -/

/-- RECV_BUF with the bytes `bs` committed and reported, before it looks whether any are left
(R182). -/
def bufMoved (bs : List Byte) (s : State) : State :=
  emitProgress (setDeadline { s with
    buf := s.buf.writeBytes s.offset.toNat bs,
    offset := countUp s.offset bs.length,
    remaining := countDown s.remaining bs.length })

theorem bufCommit_cases (bs : List Byte) (s : State) :
    ((bufMoved bs s).remaining = 0 ∧ bufCommit bs s = finish .ok .none (bufMoved bs s))
      ∨ ((bufMoved bs s).remaining ≠ 0 ∧ bufCommit bs s = bufMoved bs s) := by
  by_cases h : (bufMoved bs s).remaining = 0
  · exact .inl ⟨h, if_pos h⟩
  · exact .inr ⟨h, if_neg h⟩

/-- RECV_SINK with the bytes `bs` taken from the transport and those the sink accepted counted
(R189, R190). -/
def sinkMoved (bs : List Byte) (s : State) : State :=
  { (sinkAppend bs (setDeadline s)).2 with
    rxc := Memory.ofBytes bs,
    remaining := countDown s.remaining bs.length,
    offset := countUp s.offset (sinkAppend bs s).1 }

theorem sinkCommit_cases (bs : List Byte) (s : State) :
    ((sinkAppend bs s).1 < bs.length
        ∧ sinkCommit bs s = finish .sinkWrite .shortAccept (sinkMoved bs s))
      ∨ ((sinkAppend bs s).1 = bs.length ∧ (sinkMoved bs s).remaining = 0
        ∧ sinkCommit bs s = finish .ok .none (emitProgress (sinkMoved bs s)))
      ∨ ((sinkAppend bs s).1 = bs.length ∧ (sinkMoved bs s).remaining ≠ 0
        ∧ sinkCommit bs s = emitProgress (sinkMoved bs s)) := by
  by_cases hshort : (sinkAppend bs s).1 < bs.length
  · exact .inl ⟨hshort, if_pos hshort⟩
  · have hall : (sinkAppend bs s).1 = bs.length :=
      Nat.le_antisymm (sinkAppend_spec bs s).1 (Nat.le_of_not_lt hshort)
    have hcommit : sinkCommit bs s = if (sinkMoved bs s).remaining = 0
        then finish .ok .none (emitProgress (sinkMoved bs s))
        else emitProgress (sinkMoved bs s) := if_neg hshort
    by_cases hleft : (sinkMoved bs s).remaining = 0
    · exact .inr (.inl ⟨hall, hleft, hcommit.trans (if_pos hleft)⟩)
    · exact .inr (.inr ⟨hall, hleft, hcommit.trans (if_neg hleft)⟩)

/-- SEND with `m` more bytes of its chunk accepted, before it looks whether that ends the chunk
(R224). -/
def sendMoved (m : Nat) (s : State) : State :=
  setDeadline { s with
    txcPos := countUp s.txcPos m,
    offset := countUp s.offset m,
    remaining := countDown s.remaining m }

theorem sendAccepted_cases (m : Nat) (s : State) :
    (countUp s.txcPos m = s.txcLen ∧ sendAccepted m s = startWait s.cfg.dThrottle .throttle
        { emitProgress (sendMoved m s) with phase := .sendFetch })
      ∨ (countUp s.txcPos m ≠ s.txcLen ∧ sendAccepted m s = sendMoved m s) := by
  by_cases h : countUp s.txcPos m = s.txcLen
  · exact .inl ⟨h, if_pos h⟩
  · exact .inr ⟨h, if_neg h⟩

/-! ## The start blocks of the bulk operations -/

/-- R181: what the start of RECV_BUF can do. -/
theorem recvBufStart_cases (capacity : BitVec 16) (length : U32) (s : State) :
    recvBufStart capacity length s = illegalOp 3 s
      ∨ (∃ code, isResult code .none = true ∧ recvBufStart capacity length s
        = finish code .none { bulkStart 3 length s with capacityR := capacity })
      ∨ (capacity.toNat ≤ s.cfg.bufSize ∧ length.toNat ≤ capacity.toNat ∧ length ≠ 0
        ∧ recvBufStart capacity length s
          = { bulkStart 3 length s with capacityR := capacity, phase := .bufRun }) := by
  unfold recvBufStart
  split_ifs with hcap hlen hzero
  · exact .inl rfl
  · exact .inr (.inl ⟨.capacity, rfl, rfl⟩)
  · exact .inr (.inl ⟨.ok, rfl, rfl⟩)
  · exact .inr (.inr ⟨by omega, by omega, hzero, rfl⟩)

/-- R188: what the start of RECV_SINK can do. -/
theorem recvSinkStart_cases (length : U32) (s : State) :
    recvSinkStart length s = finish .ok .none (bulkStart 4 length s)
      ∨ (length ≠ 0
        ∧ recvSinkStart length s = { bulkStart 4 length s with phase := .sinkRun }) := by
  by_cases h : length = 0
  · exact .inl (if_pos h)
  · exact .inr ⟨h, if_neg h⟩

/-- R221: what the start of SEND can do. -/
theorem sendStart_cases (length : U32) (s : State) :
    sendStart length s = finish .ok .none { bulkStart 5 length s with txcLen := 0, txcPos := 0 }
      ∨ sendStart length s
        = { bulkStart 5 length s with txcLen := 0, txcPos := 0, phase := .sendFetch } := by
  by_cases h : length = 0
  · exact .inl (if_pos h)
  · exact .inr (if_neg h)

/-! ## The step -/

/-- R5, R279: a step that answers a next state has a valid configuration, and it is the first move
of the agenda. -/
theorem step_next {s t : State} (h : step s = .next t) :
    s.cfg.valid = true ∧ (s.agenda = [] ∧ t = s
      ∨ ∃ m rest, s.agenda = m :: rest ∧ move m { s with agenda := rest } = .next t) := by
  unfold step at h
  split at h
  · next hv =>
    refine ⟨hv, ?_⟩
    split at h
    · next ha => cases h; exact .inl ⟨ha, rfl⟩
    · next m rest ha => exact .inr ⟨m, rest, ha, h⟩
  · cases h

/-- What a turn of the block that is a step leads to. -/
theorem step_block_next {s t : State} {a : Answers} {rest : List Move}
    (ha : s.agenda = .block a :: rest) (h : step s = .next t) :
    s.cfg.valid = true ∧ BlockTurn { s with agenda := rest, answers := a } t := by
  have hv := (step_next h).1
  rw [step_block hv ha] at h
  exact ⟨hv, blockStep_next h⟩

end Sys2Proof.Machine
end

section
/-! PROOFS. The family of 10_state.md, second part: what no turn of the block writes, and how it
extends its outputs (R40 to R47, R64, R71, R72). -/

namespace Sys2Proof.Machine

/-! ## The frame of the block -/

/-- From `s` to `t` no input, nothing of the host's and not the configuration is written, the
outputs are only appended to, and bytes leave the receive buffer at its front only. -/
structure Frame (s t : State) : Prop where
  cfg : t.cfg = s.cfg
  now : t.now = s.now
  cancel : t.cancel = s.cancel
  desc : t.desc = s.desc
  source : t.source = s.source
  hostReads : t.hostReads = s.hostReads
  program : t.program = s.program
  agenda : t.agenda = s.agenda
  tx : s.tx <+: t.tx
  sink : s.sink <+: t.sink
  events : s.events <+: t.events
  sourcePos : s.sourcePos ≤ t.sourcePos
  rx : t.rx <:+ s.rx

theorem Frame.refl (s : State) : Frame s s where
  cfg := rfl
  now := rfl
  cancel := rfl
  desc := rfl
  source := rfl
  hostReads := rfl
  program := rfl
  agenda := rfl
  tx := List.prefix_refl _
  sink := List.prefix_refl _
  events := List.prefix_refl _
  sourcePos := Nat.le_refl _
  rx := List.suffix_refl _

theorem Frame.trans {s t u : State} (h : Frame s t) (h' : Frame t u) : Frame s u where
  cfg := h'.cfg.trans h.cfg
  now := h'.now.trans h.now
  cancel := h'.cancel.trans h.cancel
  desc := h'.desc.trans h.desc
  source := h'.source.trans h.source
  hostReads := h'.hostReads.trans h.hostReads
  program := h'.program.trans h.program
  agenda := h'.agenda.trans h.agenda
  tx := h.tx.trans h'.tx
  sink := h.sink.trans h'.sink
  events := h.events.trans h'.events
  sourcePos := h.sourcePos.trans h'.sourcePos
  rx := h'.rx.trans h.rx

/-! ## The shared operations keep the frame -/

theorem finish_frame (code : Status) (cause : Cause) (s : State) : Frame s (finish code cause s) :=
  { Frame.refl s with events := List.prefix_append _ _ }

theorem startWait_frame (n : Nat) (kind : WaitKind) (s : State) : Frame s (startWait n kind s) :=
  { Frame.refl s with }

theorem setDeadline_frame (s : State) : Frame s (setDeadline s) := { Frame.refl s with }

theorem emitProgress_frame (s : State) : Frame s (emitProgress s) :=
  { Frame.refl s with events := List.prefix_append _ _ }

theorem endWait_frame (s : State) : Frame s (endWait s) := by
  rcases endWait_cases s with ⟨_, e⟩ | ⟨_, e⟩ <;> rw [e]
  · exact { Frame.refl s with }
  · exact Frame.refl s

theorem transportRead_frame (k : Nat) (s : State) : Frame s (transportRead k s).2 :=
  { Frame.refl s with rx := List.drop_suffix _ _ }

theorem transportDiscard_frame (s : State) : Frame s (transportDiscard s) :=
  { Frame.refl s with rx := List.nil_suffix }

theorem transportWrite_frame (bs : List Byte) (s : State) : Frame s (transportWrite bs s).2 :=
  { Frame.refl s with tx := List.prefix_append _ _ }

theorem sinkAppend_frame (bs : List Byte) (s : State) : Frame s (sinkAppend bs s).2 :=
  { Frame.refl s with sink := List.prefix_append _ _ }

theorem sourceRead_frame (k : Nat) (s : State) : Frame s (sourceRead k s).2 :=
  { Frame.refl s with sourcePos := Nat.le_add_right _ _ }

/-! ## Every iteration and every start keeps the frame -/

theorem sendFrame_frame (cmd : Byte) (s : State) : Frame s (sendFrame cmd s) := by
  have hsent : Frame s (transportWrite (frame cmd) (transportDiscard s)).2 :=
    (transportDiscard_frame s).trans (transportWrite_frame _ _)
  simp only [sendFrame]
  split
  · exact hsent.trans (finish_frame _ _ _)
  · exact hsent.trans (finish_frame _ _ _)

theorem readLength_frame (bs : List Byte) (s : State) : Frame s (readLength bs s) := by
  rcases readLength_cases bs s with ⟨_, e⟩ | ⟨_, e⟩ <;> rw [e]
  · exact { finish_frame .ok .none s with }
  · exact { Frame.refl s with }

theorem receive_frame (b : Byte) (bs : List Byte) (s : State) : Frame s (receive b bs s) := by
  rcases receive_cases b bs s with e | ⟨_, _, e⟩ | ⟨_, _, e⟩ | ⟨_, _, e⟩ | ⟨_, _, e⟩ | ⟨_, e⟩ <;>
    rw [e]
  · exact Frame.refl s
  · exact { Frame.refl s with }
  · exact { Frame.refl s with }
  · exact { Frame.refl s with }
  · exact { finish_frame .noFrameMarker .badStx s with }
  · exact readLength_frame bs s

theorem recvLenIterate_frame (s : State) : Frame s (recvLenIterate s) := by
  rcases recvLenIterate_cases s with ⟨_, e⟩ | ⟨_, _, _, e⟩ | ⟨_, _, _, e⟩ | ⟨_, b, bs, _, e⟩ <;>
    rw [e]
  · exact { finish_frame .cancelled .cancel s with }
  · exact { finish_frame .none .deadline s with }
  · exact startWait_frame _ _ s
  · exact (transportRead_frame _ s).trans ((setDeadline_frame _).trans (receive_frame _ _ _))

theorem bufMoved_frame (bs : List Byte) (s : State) : Frame s (bufMoved bs s) :=
  { Frame.refl s with events := List.prefix_append _ _ }

theorem bufCommit_frame (bs : List Byte) (s : State) : Frame s (bufCommit bs s) := by
  rcases bufCommit_cases bs s with ⟨_, e⟩ | ⟨_, e⟩ <;> rw [e]
  · exact (bufMoved_frame bs s).trans (finish_frame _ _ _)
  · exact bufMoved_frame bs s

theorem recvBufIterate_frame (s : State) : Frame s (recvBufIterate s) := by
  rcases recvBufIterate_cases s with
    ⟨_, e⟩ | ⟨_, _, _, e⟩ | ⟨_, _, _, e⟩ | ⟨_, _, _, e⟩ | ⟨_, _, _, e⟩ <;> rw [e]
  · exact finish_frame _ _ s
  · exact finish_frame _ _ s
  · exact startWait_frame _ _ s
  · exact (transportRead_frame _ s).trans (finish_frame _ _ _)
  · exact (transportRead_frame _ s).trans (bufCommit_frame _ _)

theorem sinkMoved_frame (bs : List Byte) (s : State) : Frame s (sinkMoved bs s) :=
  { sinkAppend_frame bs s with }

theorem sinkCommit_frame (bs : List Byte) (s : State) : Frame s (sinkCommit bs s) := by
  have hreported := (sinkMoved_frame bs s).trans (emitProgress_frame _)
  rcases sinkCommit_cases bs s with ⟨_, e⟩ | ⟨_, _, e⟩ | ⟨_, _, e⟩ <;> rw [e]
  · exact (sinkMoved_frame bs s).trans (finish_frame _ _ _)
  · exact hreported.trans (finish_frame _ _ _)
  · exact hreported

theorem recvSinkIterate_frame (s : State) : Frame s (recvSinkIterate s) := by
  rcases recvSinkIterate_cases s with ⟨_, e⟩ | ⟨_, _, _, e⟩ | ⟨_, _, _, e⟩ | ⟨_, _, e⟩ <;> rw [e]
  · exact finish_frame _ _ s
  · exact finish_frame _ _ s
  · exact startWait_frame _ _ s
  · exact (transportRead_frame _ s).trans (sinkCommit_frame _ _)

theorem sendFetchIterate_frame (s : State) : Frame s (sendFetchIterate s) := by
  have hread := sourceRead_frame (fetchAsk s) s
  rcases sendFetchIterate_cases s with ⟨_, e⟩ | ⟨_, _, e⟩ | ⟨_, _, _, e⟩ | ⟨_, _, _, e⟩ <;> rw [e]
  · exact finish_frame _ _ s
  · exact finish_frame _ _ s
  · exact hread.trans (finish_frame _ _ _)
  · exact { hread with }

theorem sendAccepted_frame (m : Nat) (s : State) : Frame s (sendAccepted m s) := by
  rcases sendAccepted_cases m s with ⟨_, e⟩ | ⟨_, e⟩ <;> rw [e]
  · exact { Frame.refl s with events := List.prefix_append _ _ }
  · exact { Frame.refl s with }

theorem sendWriteIterate_frame {s t : State} (h : sendWriteIterate s = .next t) : Frame s t := by
  rcases sendWriteIterate_cases s with ⟨_, e⟩ | ⟨_, i, _, e⟩ | ⟨_, chunk, _, _, e⟩
    | ⟨_, chunk, _, _, _, e⟩ | ⟨_, chunk, _, _, _, e⟩ <;> rw [e] at h <;> cases h
  · exact finish_frame _ _ s
  · exact (transportWrite_frame _ s).trans (sendAccepted_frame _ _)
  · exact finish_frame _ _ s
  · exact startWait_frame _ _ s

theorem BlockTurn.frame {s t : State} (h : BlockTurn s t) : Frame s t := by
  cases h with
  | idle => exact Frame.refl s
  | wait => exact endWait_frame s
  | request => exact sendFrame_frame _ s
  | recvLen => exact recvLenIterate_frame s
  | recvBuf => exact recvBufIterate_frame s
  | recvSink => exact recvSinkIterate_frame s
  | fetch => exact sendFetchIterate_frame s
  | write _ _ _ ht => exact sendWriteIterate_frame ht

theorem beginOp_frame (op : BitVec 3) (s : State) : Frame s (beginOp op s) := { Frame.refl s with }

theorem bulkStart_frame (op : BitVec 3) (length : U32) (s : State) :
    Frame s (bulkStart op length s) := { Frame.refl s with }

theorem illegalOp_frame (op : BitVec 3) (s : State) : Frame s (illegalOp op s) :=
  (beginOp_frame op s).trans (finish_frame _ _ _)

theorem recvBufStart_frame (capacity : BitVec 16) (length : U32) (s : State) :
    Frame s (recvBufStart capacity length s) := by
  rcases recvBufStart_cases capacity length s with e | ⟨code, _, e⟩ | ⟨_, _, _, e⟩ <;> rw [e]
  · exact illegalOp_frame 3 s
  · exact { finish_frame code .none s with }
  · exact { Frame.refl s with }

theorem recvSinkStart_frame (length : U32) (s : State) : Frame s (recvSinkStart length s) := by
  rcases recvSinkStart_cases length s with e | ⟨_, e⟩ <;> rw [e]
  · exact (bulkStart_frame 4 length s).trans (finish_frame _ _ _)
  · exact { Frame.refl s with }

theorem sendStart_frame (length : U32) (s : State) : Frame s (sendStart length s) := by
  rcases sendStart_cases length s with e | e <;> rw [e]
  · exact { finish_frame .ok .none s with }
  · exact { Frame.refl s with }

theorem Started.frame {s t : State} (h : Started s t) : Frame s t := by
  cases h with
  | illegal op => exact illegalOp_frame op s
  | request => exact { Frame.refl s with }
  | recvLen => exact { Frame.refl s with }
  | recvBuf capacity length => exact recvBufStart_frame capacity length s
  | recvSink length => exact recvSinkStart_frame length s
  | send length => exact sendStart_frame length s

/-- Settles O43: the frame of the block's turn, clause by clause. -/
theorem blockLeavesTheRestAlone : Obligations.BlockLeavesTheRestAlone := by
  intro s t a rest ha h
  have hframe := (step_block_next ha h).2.frame
  obtain ⟨tx, htx⟩ := hframe.tx
  obtain ⟨sink, hsink⟩ := hframe.sink
  obtain ⟨events, hevents⟩ := hframe.events
  exact ⟨hframe.cfg, hframe.now, hframe.cancel, hframe.desc, hframe.source, hframe.hostReads,
    hframe.program, hframe.agenda, ⟨tx, htx.symm⟩, ⟨sink, hsink.symm⟩, ⟨events, hevents.symm⟩,
    hframe.sourcePos, fun _ => ⟨_, List.suffix_iff_eq_drop.1 hframe.rx⟩⟩

/-! ## The moves of the other agents -/

/-- A turn of the host's program writes neither `now` nor the configuration. -/
theorem programStep_now_cfg {s t : State} (h : programStep s = .next t) :
    t.now = s.now ∧ t.cfg = s.cfg := by
  rcases programStep_next h with rfl | rfl | ⟨_, d, rest, hstarted⟩
  · exact ⟨rfl, rfl⟩
  · exact ⟨rfl, rfl⟩
  · exact ⟨hstarted.frame.now, hstarted.frame.cfg⟩

/-- R7, R40: no move changes the configuration, and none but a tick changes `now`. -/
theorem move_now_cfg {m : Move} {s t : State} (h : move m s = .next t) :
    (t.now = s.now ∨ ∃ n, m = .tick n ∧ t.now = s.now + n) ∧ t.cfg = s.cfg := by
  cases m with
  | block a =>
    have hframe := (blockStep_next h).frame
    exact ⟨.inl hframe.now, hframe.cfg⟩
  | tick n => cases h; exact ⟨.inr ⟨n, rfl, rfl⟩, rfl⟩
  | start =>
    have hframe := (startStep_next h).2.frame
    exact ⟨.inl hframe.now, hframe.cfg⟩
  | readBuf i n =>
    obtain ⟨_, bs, _, rfl⟩ := hostReadBuf_next h
    exact ⟨.inl rfl, rfl⟩
  | nextLine =>
    obtain ⟨hnow, hcfg⟩ := programStep_now_cfg h
    exact ⟨.inl hnow, hcfg⟩
  | arrive | setCancel | present | readReg | supplySource | supplySink | loadProgram | reset =>
    cases h
    exact ⟨.inl rfl, rfl⟩

theorem step_cfg {s t : State} (h : step s = .next t) : t.cfg = s.cfg := by
  obtain ⟨_, ⟨_, rfl⟩ | ⟨m, rest, _, hm⟩⟩ := step_next h
  · rfl
  · exact (move_now_cfg hm).2

/-- Settles O42: of all the moves, only a tick writes `now`. -/
theorem timeNeverDecreases : Obligations.TimeNeverDecreases := by
  intro s t h
  obtain ⟨_, ⟨_, rfl⟩ | ⟨m, rest, ha, hm⟩⟩ := step_next h
  · exact ⟨Nat.le_refl _, fun hne => absurd rfl hne⟩
  · rcases (move_now_cfg hm).1 with hnow | ⟨n, rfl, hnow⟩
    · exact ⟨Nat.le_of_eq hnow.symm, fun hne => absurd hnow hne⟩
    · exact ⟨hnow ▸ Nat.le_add_right _ _, fun _ => ⟨n, rest, ha, hnow⟩⟩

end Sys2Proof.Machine
end

section
/-! PROOFS. The family of 10_state.md, third part: the invariant of the machine holds at reset and
every step keeps it (R20 to R39, R61, R62, R250, R270). -/

namespace Sys2Proof.Machine

/-! ## The parts of the invariant -/

/-- The part of the invariant that does not depend on the phase. -/
structure PhaseFree (s : State) : Prop where
  bufWf : s.buf.wf = true
  txcWf : s.txc.wf = true
  rxcWf : s.rxc.wf = true
  bufWithin : s.buf.within s.cfg.bufSize = true
  txcWithin : s.txc.within s.cfg.chunkTx = true
  rxcWithin : s.rxc.within s.cfg.chunkRx = true
  lenCountBound : s.lenCount.toNat ≤ 4
  lenAccBound : s.lenAcc.toNat < 256 ^ s.lenCount.toNat
  chunkBounds : s.txcPos.toNat ≤ s.txcLen.toNat ∧ s.txcLen.toNat ≤ s.cfg.chunkTx
  deadlineBound : s.deadline ≤ s.now + s.cfg.tTimeout
  sourceBound : s.sourcePos ≤ s.source.length

/-- The part of the invariant about the counters and the chunk of a running bulk operation. -/
structure BulkPart (s : State) : Prop where
  counters : isBulk s.phase = true → s.offset.toNat + s.remaining.toNat = s.total.toNat
  bytesLeft : s.phase = .bufRun ∨ s.phase = .sinkRun ∨ s.phase = .sendWrite → s.remaining ≠ 0
  bufFits : s.phase = .bufRun →
    s.total.toNat ≤ s.capacityR.toNat ∧ s.capacityR.toNat ≤ s.cfg.bufSize
  chunkLeft : s.phase = .sendWrite → s.txcPos.toNat < s.txcLen.toNat ∧
    s.txcLen.toNat - s.txcPos.toNat ≤ s.remaining.toNat
  chunkWritten : s.phase = .sendWrite → ∀ i < s.txcLen.toNat, (s.txc.read i).isSome = true

/-- The part of the invariant about the receive state machine. -/
structure RxPart (s : State) : Prop where
  rxRunning : s.phase = .rxRun →
    s.rxsm = .seekDle ∨ s.rxsm = .seekStx ∨ s.rxsm = .readLength
  rxOutside : s.phase ≠ .rxRun → s.rxsm ≠ .seekStx ∧ s.rxsm ≠ .readLength
  lenSeeking : s.phase = .rxRun → s.rxsm ≠ .readLength → s.lenCount = 0 ∧ s.lenAcc = 0
  lenReading : s.phase = .rxRun → s.rxsm = .readLength → s.lenCount.toNat < 4

/-- The control registers of an operation that has just started (R22, R39, R130). -/
structure Launched (p : Phase) (s : State) : Prop where
  busy : s.busy = true
  phase : s.phase = p
  op : s.op = phaseOp p
  status : s.status = .none
  cause : s.cause = .none
  waiting : s.waiting = false

theorem Inv.phaseFree {s : State} (h : Inv s) : PhaseFree s := { h with }

theorem bulkPart_of_not_isBulk {s : State} (h : isBulk s.phase = false) : BulkPart s where
  counters hp := by simp [h] at hp
  bytesLeft hp := by rcases hp with hp | hp | hp <;> simp [hp, isBulk] at h
  bufFits hp := by simp [hp, isBulk] at h
  chunkLeft hp := by simp [hp, isBulk] at h
  chunkWritten hp := by simp [hp, isBulk] at h

theorem rxPart_of_outside {s : State} (hp : s.phase ≠ .rxRun)
    (hx : s.rxsm ≠ .seekStx ∧ s.rxsm ≠ .readLength) : RxPart s where
  rxRunning h := absurd h hp
  rxOutside _ := hx
  lenSeeking h := absurd h hp
  lenReading h := absurd h hp

/-- A block that has just finished, or just been reset, satisfies the invariant by the part of it
that does not depend on the phase. -/
theorem inv_of_idle {s : State} (hfree : PhaseFree s) (hb : s.busy = false) (hp : s.phase = .idle)
    (hw : s.waiting = false) (hx : s.rxsm ≠ .seekStx ∧ s.rxsm ≠ .readLength)
    (hr : s.status = .none ∧ s.cause = .none ∨ isResult s.status s.cause = true) : Inv s :=
  { hfree, rxPart_of_outside (by simp [hp]) hx,
    bulkPart_of_not_isBulk (by simp [hp, isBulk]) with
    busyPhase := by simp [hb, hp]
    waitPhase := by simp [hw]
    opPhase := absurd hp
    noResult := by simp [hb]
    resultLegal := hr
    waitKinds := by simp [hw]
    wakeBound := by simp [hw] }

/-- R262: `finish` keeps the invariant wherever the receive state machine is not left half-way. -/
theorem inv_finish {code : Status} {cause : Cause} {s : State} (hfree : PhaseFree s)
    (hw : s.waiting = false) (hx : s.rxsm ≠ .seekStx ∧ s.rxsm ≠ .readLength)
    (hr : isResult code cause = true) : Inv (finish code cause s) :=
  inv_of_idle { hfree with } rfl rfl hw hx (.inr hr)

/-- An operation that has just started satisfies the invariant by its parts. -/
theorem inv_of_launched {p : Phase} {s : State} (hfree : PhaseFree s) (hl : Launched p s)
    (hp : p ≠ .idle) (hrx : RxPart s) (hbulk : BulkPart s) : Inv s :=
  { hfree, hrx, hbulk with
    busyPhase := by simp [hl.busy, hl.phase, hp]
    waitPhase := by simp [hl.waiting]
    opPhase := fun _ => by rw [hl.op, hl.phase]
    noResult := fun _ => ⟨hl.status, hl.cause⟩
    resultLegal := .inl ⟨hl.status, hl.cause⟩
    waitKinds := by simp [hl.waiting]
    wakeBound := by simp [hl.waiting] }

/-! ## What the invariant says of the phases -/

theorem Inv.idle_of_not_busy {s : State} (h : Inv s) (hb : s.busy = false) : s.phase = .idle := by
  by_contra hp
  simp [h.busyPhase.2 hp] at hb

theorem Inv.not_waiting {s : State} (h : Inv s) (hi : isIterating s.phase = false) :
    s.waiting = false := by
  by_contra hw
  simp [h.waitPhase (by simpa using hw)] at hi

/-! ## Counters that move together (R31 to R33) -/

theorem countUp_toNat_of_left {offset remaining total : U32} {n : Nat}
    (h : offset.toNat + remaining.toNat = total.toNat) (hn : n ≤ remaining.toNat) :
    (countUp offset n).toNat = offset.toNat + n :=
  countUp_toNat (by have := total.isLt; omega)

/-- R33: moving `n` of the bytes left keeps the sum of the counters. -/
theorem counters_moved {offset remaining total : U32} {n : Nat}
    (h : offset.toNat + remaining.toNat = total.toNat) (hn : n ≤ remaining.toNat) :
    (countUp offset n).toNat + (countDown remaining n).toNat = total.toNat := by
  rw [countUp_toNat_of_left h hn, countDown_toNat]
  omega

/-! ## Starts -/

theorem bulkStart_phaseFree (op : BitVec 3) (length : U32) {s : State} (h : Inv s) :
    PhaseFree (bulkStart op length s) :=
  { h.phaseFree with deadlineBound := Nat.le_refl _ }

/-- R265: the start of an idle block keeps the invariant. -/
theorem started_inv {s t : State} (h : Inv s) (hb : s.busy = false) (ht : Started s t) :
    Inv t := by
  have hidle := h.idle_of_not_busy hb
  have hw : s.waiting = false := h.not_waiting (by simp [hidle, isIterating])
  have hx := h.rxOutside (by simp [hidle])
  have hfree := fun op length => bulkStart_phaseFree op length h
  cases ht with
  | illegal op => exact inv_finish { h.phaseFree with } hw hx rfl
  | request cmd =>
    exact inv_of_launched (p := .reqSend) { h.phaseFree with } ⟨rfl, rfl, rfl, rfl, rfl, hw⟩
      (by simp) (rxPart_of_outside (by simp [requestStart]) hx) (bulkPart_of_not_isBulk rfl)
  | recvLen =>
    refine inv_of_launched (p := .rxRun) ?free ⟨rfl, rfl, rfl, rfl, rfl, hw⟩ (by simp) ?rx
      (bulkPart_of_not_isBulk rfl)
    case free =>
      exact { h.phaseFree with
        lenCountBound := by simp [recvLenStart]
        lenAccBound := by simp [recvLenStart]
        deadlineBound := Nat.le_refl _ }
    case rx => constructor <;> simp [recvLenStart]
  | recvBuf capacity length =>
    rcases recvBufStart_cases capacity length s with e | ⟨code, hr, e⟩ | ⟨hcap, hlen, hne, e⟩ <;>
      rw [e]
    · exact inv_finish { h.phaseFree with } hw hx rfl
    · exact inv_finish { hfree 3 length with } hw hx hr
    · refine inv_of_launched (p := .bufRun) { hfree 3 length with } ⟨rfl, rfl, rfl, rfl, rfl, hw⟩
        (by simp) (rxPart_of_outside (by simp) hx) ?_
      exact
        { counters := fun _ => Nat.zero_add _
          bytesLeft := fun _ => hne
          bufFits := fun _ => ⟨hlen, hcap⟩
          chunkLeft := nofun
          chunkWritten := nofun }
  | recvSink length =>
    rcases recvSinkStart_cases length s with e | ⟨hne, e⟩ <;> rw [e]
    · exact inv_finish (hfree 4 length) hw hx rfl
    · refine inv_of_launched (p := .sinkRun) { hfree 4 length with } ⟨rfl, rfl, rfl, rfl, rfl, hw⟩
        (by simp) (rxPart_of_outside (by simp) hx) ?_
      exact
        { counters := fun _ => Nat.zero_add _
          bytesLeft := fun _ => hne
          bufFits := nofun
          chunkLeft := nofun
          chunkWritten := nofun }
  | send length =>
    have hchunk : (0 : U32).toNat ≤ (0 : U32).toNat ∧ (0 : U32).toNat ≤ s.cfg.chunkTx := by simp
    rcases sendStart_cases length s with e | e <;> rw [e]
    · exact inv_finish { hfree 5 length with chunkBounds := hchunk } hw hx rfl
    · refine inv_of_launched (p := .sendFetch) { hfree 5 length with chunkBounds := hchunk }
        ⟨rfl, rfl, rfl, rfl, rfl, hw⟩ (by simp) (rxPart_of_outside (by simp) hx) ?_
      exact
        { counters := fun _ => Nat.zero_add _
          bytesLeft := by simp
          bufFits := nofun
          chunkLeft := nofun
          chunkWritten := nofun }

/-! ## Waits and the deadline -/

theorem endWait_inv {s : State} (h : Inv s) : Inv (endWait s) := by
  rcases endWait_cases s with ⟨_, e⟩ | ⟨_, e⟩ <;> rw [e]
  · exact { h with waitPhase := nofun, waitKinds := nofun, wakeBound := nofun }
  · exact h

/-- R29, R160, R182: a poll wait of the phase's own length keeps the invariant. -/
theorem startPoll_inv {s : State} {n : Nat} (h : Inv s) (hi : isIterating s.phase = true)
    (hf : s.phase ≠ .sendFetch)
    (hn : n = if s.phase = .rxRun then s.cfg.pPollRx else s.cfg.pPollBulk) :
    Inv (startWait n .poll s) :=
  { h with
    waitPhase := fun _ => hi
    waitKinds := fun _ => by simp [startWait, hf]
    wakeBound := fun _ => by simp [startWait, waitLength, hn] }

theorem setDeadline_inv {s : State} (h : Inv s) : Inv (setDeadline s) :=
  { h with deadlineBound := Nat.le_refl _ }

theorem transportRead_inv (k : Nat) {s : State} (h : Inv s) : Inv (transportRead k s).2 :=
  { h with }

theorem transportWrite_inv (bs : List Byte) {s : State} (h : Inv s) :
    Inv (transportWrite bs s).2 := { h with }

/-! ## REQUEST -/

theorem sendFrame_inv {cmd : Byte} {s : State} (h : Inv s) (hp : s.phase = .reqSend) :
    Inv (sendFrame cmd s) := by
  have hw := h.not_waiting (by simp [hp, isIterating])
  have hx := h.rxOutside (by simp [hp])
  simp only [sendFrame]
  split
  · exact inv_finish { h.phaseFree with } hw hx rfl
  · exact inv_finish { h.phaseFree with } hw hx rfl

/-! ## RECV_LEN -/

/-- R25: `n` bytes shifted into an accumulator of `k` bytes give one of `k + n` bytes. -/
theorem accumulate_lt {acc : U32} {k : Nat} (bs : List Byte) (h : acc.toNat < 256 ^ k) :
    (accumulate acc bs).toNat < 256 ^ (k + bs.length) := by
  induction bs generalizing acc k with
  | nil => exact h
  | cons b bs ih =>
    have hb := b.isLt
    have hshift : (BitVec.ofNat 32 (acc.toNat * 256 + b.toNat)).toNat < 256 ^ (k + 1) :=
      calc (BitVec.ofNat 32 (acc.toNat * 256 + b.toNat)).toNat
          ≤ acc.toNat * 256 + b.toNat := by rw [BitVec.toNat_ofNat]; exact Nat.mod_le _ _
        _ < 256 ^ (k + 1) := by rw [Nat.pow_succ]; omega
    have := ih hshift
    rwa [Nat.add_assoc, Nat.add_comm 1] at this

/-- R26: the length count after `n` more bytes, which never exceeds 4. -/
theorem lenCount_toNat {s : State} {n : Nat} (h : s.lenCount.toNat + n ≤ 4) :
    (BitVec.ofNat 3 (s.lenCount.toNat + n)).toNat = s.lenCount.toNat + n := by
  rw [BitVec.toNat_ofNat]
  exact Nat.mod_eq_of_lt (by omega)

theorem readLength_inv {bs : List Byte} {s : State} (h : Inv s)
    (hw : s.waiting = false) (hx : s.rxsm = .readLength)
    (hlen : s.lenCount.toNat + bs.length ≤ 4) : Inv (readLength bs s) := by
  have hcount := lenCount_toNat hlen
  have hacc := accumulate_lt bs h.lenAccBound
  rcases readLength_cases bs s with ⟨h4, e⟩ | ⟨h4, e⟩ <;> rw [e]
  · have hfour : s.lenCount.toNat + bs.length = 4 := by rw [← hcount, h4]; rfl
    rw [hfour] at hacc
    exact inv_finish { h.phaseFree with lenCountBound := Nat.le_refl 4, lenAccBound := hacc } hw
      (by simp) rfl
  · have hthree : s.lenCount.toNat + bs.length < 4 :=
      Nat.lt_of_le_of_ne hlen fun hfour => h4 (by rw [hfour])
    exact { h with
      lenCountBound := hcount.trans_le hlen
      lenAccBound := by simpa only [hcount] using hacc
      lenSeeking := fun _ hne => absurd hx hne
      lenReading := fun _ _ => hcount.trans_lt hthree }

/-- R153 to R157: what RECV_LEN does with the bytes of a read keeps the invariant. -/
theorem receive_inv {b : Byte} {bs : List Byte} {s : State} (h : Inv s) (hp : s.phase = .rxRun)
    (hw : s.waiting = false) (hlen : bs.length ≤ rxAsk s) : Inv (receive b bs s) := by
  rcases receive_cases b bs s with e | ⟨hx, _, e⟩ | ⟨hx, _, e⟩ | ⟨hx, _, e⟩ | ⟨hx, _, e⟩ | ⟨hx, e⟩
    <;> rw [e]
  · exact h
  · have hzero := h.lenSeeking hp (by simp [hx])
    exact { h with
      rxRunning := fun _ => .inr (.inl rfl)
      rxOutside := absurd hp
      lenSeeking := fun _ _ => hzero
      lenReading := nofun }
  · exact { h with
      lenCountBound := by simp
      lenAccBound := by simp
      rxRunning := fun _ => .inr (.inr rfl)
      rxOutside := absurd hp
      lenSeeking := fun _ hne => absurd rfl hne
      lenReading := fun _ _ => by simp }
  · have hzero := h.lenSeeking hp (by simp [hx])
    exact { h with
      rxRunning := fun _ => .inl rfl
      rxOutside := absurd hp
      lenSeeking := fun _ _ => hzero
      lenReading := nofun }
  · exact inv_finish { h.phaseFree with } hw (by simp) rfl
  · have hlt := h.lenReading hp hx
    rw [rxAsk_readLength hx] at hlen
    exact readLength_inv h hw hx (by omega)

/-- R159: both codes a RECV_LEN can run out of time with are results. -/
theorem recvLenExpired_inv {s : State} (h : Inv s) (hw : s.waiting = false) :
    Inv (recvLenExpired s) :=
  inv_finish { h.phaseFree with } hw (by simp) (by split <;> rfl)

theorem recvLenIterate_inv {s : State} (h : Inv s) (hp : s.phase = .rxRun)
    (hw : s.waiting = false) : Inv (recvLenIterate s) := by
  rcases recvLenIterate_cases s with ⟨_, e⟩ | ⟨_, _, _, e⟩ | ⟨_, _, _, e⟩ | ⟨_, b, bs, hr, e⟩ <;>
    rw [e]
  · exact inv_finish { h.phaseFree with } hw (by simp) rfl
  · exact recvLenExpired_inv h hw
  · exact startPoll_inv h (by simp [hp, isIterating]) (by simp [hp]) (by simp [hp])
  · have hlen : (b :: bs).length ≤ rxAsk s := hr ▸ (transportRead_spec (rxAsk s) s).1
    exact receive_inv (setDeadline_inv (transportRead_inv _ h)) hp hw hlen

/-! ## RECV_BUF and RECV_SINK -/

/-- R250: a bulk operation that does not wait ends with any result. -/
theorem bulkFinish_inv {code : Status} {cause : Cause} {s : State} (h : Inv s)
    (hp : s.phase ≠ .rxRun) (hw : s.waiting = false) (hr : isResult code cause = true) :
    Inv (finish code cause s) :=
  inv_finish h.phaseFree hw (h.rxOutside hp) hr

theorem bulkPoll_inv {s : State} (h : Inv s)
    (hp : s.phase = .bufRun ∨ s.phase = .sinkRun ∨ s.phase = .sendWrite) :
    Inv (startWait s.cfg.pPollBulk .poll s) := by
  rcases hp with hp | hp | hp <;>
    exact startPoll_inv h (by simp [hp, isIterating]) (by simp [hp]) (by simp [hp])

/-- R182: the bytes of a read that fits the capacity are committed. -/
theorem bufCommit_inv {bs : List Byte} {s : State} (h : Inv s) (hp : s.phase = .bufRun)
    (hw : s.waiting = false) (hn : bs.length ≤ s.remaining.toNat)
    (hcap : s.offset.toNat + bs.length ≤ s.capacityR.toNat) : Inv (bufCommit bs s) := by
  have hfit := (h.bufFits hp).2
  have hbuf := Memory.writeBytes_wf bs s.offset.toNat h.bufWf
  have hwithin := Memory.writeBytes_within bs (hcap.trans hfit) h.bufWithin
  rcases bufCommit_cases bs s with ⟨_, e⟩ | ⟨hleft, e⟩ <;> rw [e]
  · exact inv_finish { h.phaseFree with
      bufWf := hbuf
      bufWithin := hwithin
      deadlineBound := Nat.le_refl _ } hw (h.rxOutside (by simp [hp])) rfl
  · exact { h with
      bufWf := hbuf
      bufWithin := hwithin
      deadlineBound := Nat.le_refl _
      counters := fun hbulk => counters_moved (h.counters hbulk) hn
      bytesLeft := fun _ => hleft
      chunkLeft := fun hwrite => absurd (hp.symm.trans hwrite) (by simp) }

theorem recvBufIterate_inv {s : State} (h : Inv s) (hp : s.phase = .bufRun)
    (hw : s.waiting = false) : Inv (recvBufIterate s) := by
  have hrx : s.phase ≠ .rxRun := by simp [hp]
  have hread := transportRead_inv (bufAsk s) h
  rcases recvBufIterate_cases s with
    ⟨_, e⟩ | ⟨_, _, _, e⟩ | ⟨_, _, _, e⟩ | ⟨_, _, _, e⟩ | ⟨_, _, hcap, e⟩ <;> rw [e]
  · exact bulkFinish_inv h hrx hw rfl
  · exact bulkFinish_inv h hrx hw rfl
  · exact bulkPoll_inv h (.inl hp)
  · exact bulkFinish_inv hread hrx hw rfl
  · exact bufCommit_inv hread hp hw (transportRead_spec (bufAsk s) s).1 hcap

/-- R189: the bytes of a read go to the sink. -/
theorem sinkCommit_inv {bs : List Byte} {s : State} (h : Inv s) (hp : s.phase = .sinkRun)
    (hw : s.waiting = false) (hn : bs.length ≤ sinkAsk s) : Inv (sinkCommit bs s) := by
  have hx := h.rxOutside (by simp [hp])
  have hrem : bs.length ≤ s.remaining.toNat := hn.trans (Nat.min_le_left _ _)
  have hfree : PhaseFree (sinkMoved bs s) :=
    { h.phaseFree with
      rxcWf := Memory.ofBytes_wf bs
      rxcWithin := Memory.ofBytes_within (hn.trans (Nat.min_le_right _ _))
      deadlineBound := Nat.le_refl _ }
  rcases sinkCommit_cases bs s with ⟨_, e⟩ | ⟨_, _, e⟩ | ⟨hall, hleft, e⟩ <;> rw [e]
  · exact inv_finish hfree hw hx rfl
  · exact inv_finish { hfree with } hw hx rfl
  · exact { hfree, h with
      counters := fun hbulk => by
        simpa [sinkMoved, hall] using counters_moved (h.counters hbulk) hrem
      bytesLeft := fun _ => hleft
      chunkLeft := fun hwrite => absurd (hp.symm.trans hwrite) (by simp) }

theorem recvSinkIterate_inv {s : State} (h : Inv s) (hp : s.phase = .sinkRun)
    (hw : s.waiting = false) : Inv (recvSinkIterate s) := by
  have hrx : s.phase ≠ .rxRun := by simp [hp]
  rcases recvSinkIterate_cases s with ⟨_, e⟩ | ⟨_, _, _, e⟩ | ⟨_, _, _, e⟩ | ⟨_, _, e⟩ <;> rw [e]
  · exact bulkFinish_inv h hrx hw rfl
  · exact bulkFinish_inv h hrx hw rfl
  · exact bulkPoll_inv h (.inr (.inl hp))
  · exact sinkCommit_inv (transportRead_inv _ h) hp hw (transportRead_spec (sinkAsk s) s).1

/-! ## SEND -/

/-- A chunk is never longer than what a 32-bit counter holds. -/
theorem fetchAsk_toNat (s : State) : (BitVec.ofNat 32 (fetchAsk s)).toNat = fetchAsk s := by
  have hle : fetchAsk s ≤ s.remaining.toNat := Nat.min_le_right _ _
  have := s.remaining.isLt
  rw [BitVec.toNat_ofNat]
  exact Nat.mod_eq_of_lt (by omega)

/-- R222: a fetch keeps the invariant; the chunk is not empty because `CHUNK_TX` is not 0 (R8). -/
theorem sendFetchIterate_inv {s : State} (hv : s.cfg.valid = true) (h : Inv s)
    (hp : s.phase = .sendFetch) (hw : s.waiting = false) : Inv (sendFetchIterate s) := by
  have hrx : s.phase ≠ .rxRun := by simp [hp]
  have hx := h.rxOutside hrx
  have hsource := (sourceRead_spec (fetchAsk s) s).2.2 h.sourceBound
  rcases sendFetchIterate_cases s with ⟨_, e⟩ | ⟨_, _, e⟩ | ⟨_, _, _, e⟩ | ⟨hne, _, hlen, e⟩ <;>
    rw [e]
  · exact bulkFinish_inv h hrx hw rfl
  · exact bulkFinish_inv h hrx hw rfl
  · exact inv_finish { h.phaseFree with sourceBound := hsource } hw hx rfl
  · obtain ⟨_, _, _, _, _, hchunk, _⟩ := (config_valid_iff s.cfg).1 hv
    have hleft : 0 < s.remaining.toNat :=
      Nat.pos_of_ne_zero fun hz => hne (BitVec.eq_of_toNat_eq hz)
    have hpos : 0 < fetchAsk s := Nat.lt_min.2 ⟨hchunk, hleft⟩
    have hsize : fetchAsk s ≤ s.cfg.chunkTx := Nat.min_le_left _ _
    have hrem : fetchAsk s ≤ s.remaining.toNat := Nat.min_le_right _ _
    have htoNat := fetchAsk_toNat s
    exact { h with
      sourceBound := hsource
      txcWf := Memory.ofBytes_wf _
      txcWithin := Memory.ofBytes_within (hlen.trans_le hsize)
      busyPhase := by simp [h.busyPhase.2 (by simp [hp])]
      waitPhase := fun _ => rfl
      opPhase := fun _ => (h.opPhase (by simp [hp])).trans (by rw [hp]; rfl)
      rxRunning := nofun
      rxOutside := fun _ => hx
      lenSeeking := nofun
      lenReading := nofun
      counters := fun _ => h.counters (by simp [hp, isBulk])
      bytesLeft := fun _ => hne
      bufFits := nofun
      chunkBounds := ⟨by simp, htoNat.trans_le hsize⟩
      chunkLeft := fun _ => ⟨by simpa [htoNat] using hpos, by simpa [htoNat] using hrem⟩
      chunkWritten := fun _ i hi => by
        rw [htoNat, ← hlen] at hi
        simp [hi]
      waitKinds := by simp [hw]
      wakeBound := by simp [hw] }

/-- R224, R227: the bytes the transport accepts of a chunk, at most those it was given. -/
theorem sendAccepted_inv {m : Nat} {s : State} (h : Inv s) (hp : s.phase = .sendWrite)
    (hm : m ≤ writeAsk s) : Inv (sendAccepted m s) := by
  have hx := h.rxOutside (by simp [hp])
  obtain ⟨hlt, hchunk⟩ := h.chunkLeft hp
  have hsum := h.counters (by simp [hp, isBulk])
  have hask : m ≤ s.txcLen.toNat - s.txcPos.toNat := hm
  have hmoved := counters_moved hsum (hask.trans hchunk)
  have hpos : (countUp s.txcPos m).toNat = s.txcPos.toNat + m :=
    countUp_toNat (by have := s.txcLen.isLt; omega)
  have hbounds : (countUp s.txcPos m).toNat ≤ s.txcLen.toNat ∧ s.txcLen.toNat ≤ s.cfg.chunkTx :=
    ⟨by omega, h.chunkBounds.2⟩
  have hfree : PhaseFree (sendMoved m s) :=
    { h.phaseFree with chunkBounds := hbounds, deadlineBound := Nat.le_refl _ }
  rcases sendAccepted_cases m s with ⟨_, e⟩ | ⟨hmore, e⟩ <;> rw [e]
  · exact { hfree, h with
      busyPhase := by simp [sendMoved, h.busyPhase.2 (by simp [hp])]
      waitPhase := fun _ => rfl
      opPhase := fun _ => (h.opPhase (by simp [hp])).trans (by rw [hp]; rfl)
      rxRunning := nofun
      rxOutside := fun _ => hx
      lenSeeking := nofun
      lenReading := nofun
      counters := fun _ => hmoved
      bytesLeft := by simp
      bufFits := nofun
      chunkLeft := nofun
      chunkWritten := nofun
      waitKinds := by simp
      wakeBound := fun _ => Nat.le_refl _ }
  · have hpart : s.txcPos.toNat + m < s.txcLen.toNat :=
      Nat.lt_of_le_of_ne (by omega) fun hall => hmore (BitVec.eq_of_toNat_eq (hpos.trans hall))
    exact { hfree, h with
      counters := fun _ => hmoved
      bytesLeft := fun _ hzero => by
        have := countDown_eq_zero.1 hzero
        omega
      chunkLeft := fun _ => by
        simp only [sendMoved, setDeadline_txcPos, setDeadline_txcLen, setDeadline_remaining, hpos,
          countDown_toNat]
        omega }

theorem sendWriteIterate_inv {s t : State} (h : Inv s) (hp : s.phase = .sendWrite)
    (hw : s.waiting = false) (ht : sendWriteIterate s = .next t) : Inv t := by
  have hrx : s.phase ≠ .rxRun := by simp [hp]
  rcases sendWriteIterate_cases s with ⟨_, e⟩ | ⟨_, i, _, e⟩ | ⟨_, chunk, hread, _, e⟩
    | ⟨_, chunk, _, _, _, e⟩ | ⟨_, chunk, _, _, _, e⟩ <;> rw [e] at ht <;> cases ht
  · exact bulkFinish_inv h hrx hw rfl
  · have hm : (transportWrite chunk s).1 ≤ writeAsk s :=
      (transportWrite_spec chunk s).1.trans_eq (Memory.readBytes_ok hread).1
    exact sendAccepted_inv (transportWrite_inv chunk h) hp hm
  · exact bulkFinish_inv h hrx hw rfl
  · exact bulkPoll_inv h (.inr (.inr hp))

/-! ## Every step -/

/-- R6: every turn of the block keeps the invariant. -/
theorem blockTurn_inv {s t : State} (hv : s.cfg.valid = true) (h : Inv s) (ht : BlockTurn s t) :
    Inv t := by
  cases ht with
  | idle => exact h
  | wait => exact endWait_inv h
  | request _ _ hp => exact sendFrame_inv h hp
  | recvLen _ hw hp => exact recvLenIterate_inv h hp hw
  | recvBuf _ hw hp => exact recvBufIterate_inv h hp hw
  | recvSink _ hw hp => exact recvSinkIterate_inv h hp hw
  | fetch _ hw hp => exact sendFetchIterate_inv hv h hp hw
  | write _ hw hp ht => exact sendWriteIterate_inv h hp hw ht

/-- R290: the reset values satisfy the invariant, whatever the inputs are. -/
theorem resetBlock_inv {s : State} (hsource : s.sourcePos ≤ s.source.length) :
    Inv (resetBlock s) :=
  inv_of_idle
    { bufWf := rfl, txcWf := rfl, rxcWf := rfl, bufWithin := rfl, txcWithin := rfl, rxcWithin := rfl
      lenCountBound := by simp [resetBlock]
      lenAccBound := by simp [resetBlock]
      chunkBounds := by simp [resetBlock]
      deadlineBound := Nat.zero_le _
      sourceBound := hsource }
    rfl rfl rfl (by simp [resetBlock]) (.inl ⟨rfl, rfl⟩)

/-- R40: time passes; what bounds the deadline and the wake time only grows. -/
theorem tick_inv {s : State} (n : Nat) (h : Inv s) : Inv { s with now := s.now + n } :=
  { h with
    wakeBound := fun hw => (h.wakeBound hw).trans
      (Nat.add_le_add_right (Nat.le_add_right s.now n) (waitLength s))
    deadlineBound := h.deadlineBound.trans
      (Nat.add_le_add_right (Nat.le_add_right s.now n) s.cfg.tTimeout) }

theorem programStep_inv {s t : State} (h : Inv s) (ht : programStep s = .next t) : Inv t := by
  rcases programStep_next ht with rfl | rfl | ⟨hb, d, rest, hstarted⟩
  · exact h
  · exact { h with }
  · exact started_inv (s := { s with desc := d, program := rest }) { h with } hb hstarted

/-- R5: every move of every agent keeps the invariant. -/
theorem move_inv {m : Move} {s t : State} (hv : s.cfg.valid = true) (h : Inv s)
    (ht : move m s = .next t) : Inv t := by
  cases m with
  | block a => exact blockTurn_inv (s := { s with answers := a }) hv { h with } (blockStep_next ht)
  | start =>
    obtain ⟨hb, hstarted⟩ := startStep_next ht
    exact started_inv h hb hstarted
  | nextLine => exact programStep_inv h ht
  | readBuf i n =>
    obtain ⟨_, bs, _, rfl⟩ := hostReadBuf_next ht
    exact { h with }
  | tick n => cases ht; exact tick_inv n h
  | reset => cases ht; exact resetBlock_inv h.sourceBound
  | supplySource bytes => cases ht; exact { h with sourceBound := Nat.zero_le _ }
  | arrive | setCancel | present | readReg | supplySink | loadProgram => cases ht; exact { h with }

/-- Settles O51, move by move; the configuration is in the frame of every move. -/
theorem stepKeepsInv : Obligations.StepKeepsInv := by
  intro s t h ht
  refine ⟨?_, step_cfg ht⟩
  obtain ⟨hv, ⟨_, rfl⟩ | ⟨m, rest, _, hm⟩⟩ := step_next ht
  · exact h
  · exact move_inv (s := { s with agenda := rest }) hv { h with } hm

/-- Settles O50: the reset state is what the reset step makes of it. -/
theorem resetSatisfiesInv : Obligations.ResetSatisfiesInv :=
  resetBlock_inv (s := State.reset) (Nat.zero_le _)

end Sys2Proof.Machine
end

section
/-! PROOFS. The family of 10_state.md, fourth part: what the invariant gives, that only the host can
stop the machine (R265, R277, R279) and that the bulk counters add up (R33, R250, R255). -/

namespace Sys2Proof.Machine

/-! ## Only the host stops the machine -/

/-- R49, R224: under the invariant every byte a write of SEND reads from its chunk was fetched. -/
theorem sendWriteIterate_completes {s : State} (h : Inv s) (hp : s.phase = .sendWrite) :
    ∃ t, sendWriteIterate s = .next t := by
  rcases sendWriteIterate_cases s with ⟨_, e⟩ | ⟨_, i, hread, _⟩ | ⟨_, _, _, _, e⟩
    | ⟨_, _, _, _, _, e⟩ | ⟨_, _, _, _, _, e⟩
  case inr.inl =>
    obtain ⟨_, hi, hnone, _⟩ := Memory.readBytes_error hread
    have hlt : i < s.txcLen.toNat := by
      have := (h.chunkLeft hp).1
      unfold writeAsk at hi
      omega
    simpa [hnone] using h.chunkWritten hp i hlt
  all_goals exact ⟨_, e⟩

theorem blockStep_completes {s : State} (h : Inv s) : ∃ t, blockStep s = .next t := by
  by_cases hidle : s.busy = false ∨ s.phase = .idle
  · exact ⟨s, blockStep_idle hidle⟩
  · obtain ⟨hb, hi⟩ : s.busy = true ∧ s.phase ≠ .idle := by simpa using hidle
    rw [blockStep_running hb hi]
    split
    · exact ⟨_, rfl⟩
    · unfold iteration
      cases hp : s.phase with
      | sendWrite => exact sendWriteIterate_completes h hp
      | _ => exact ⟨_, rfl⟩

/-- R49: a read of written bytes inside `BUF` is a step. -/
theorem hostReadBuf_completes {i n : Nat} {s : State} (hsize : i + n ≤ s.cfg.bufSize)
    (hwritten : ∀ k < n, (s.buf.read (i + k)).isSome = true) :
    ∃ t, hostReadBuf i n s = .next t := by
  unfold hostReadBuf
  rw [if_neg (by omega)]
  cases hread : s.buf.readBytes i n with
  | ok bs => exact ⟨_, rfl⟩
  | error j =>
    obtain ⟨hj, hjn, hnone, _⟩ := Memory.readBytes_error hread
    have := hwritten (j - i) (by omega)
    rw [Nat.add_sub_cancel' hj, hnone] at this
    cases this

/-- Settles O52, by the agent whose move is next. -/
theorem onlyTheHostCanFault : Obligations.OnlyTheHostCanFault := by
  intro s h hv hcontract
  cases ha : s.agenda with
  | nil => exact ⟨s, by simp [step, hv, ha]⟩
  | cons m rest =>
    have hstep : step s = move m { s with agenda := rest } := by simp [step, hv, ha]
    rw [hstep]
    cases m with
    | block a => exact blockStep_completes (s := { s with agenda := rest, answers := a }) { h with }
    | start =>
      have hb : s.busy = false := by simpa [hostKeepsContract, ha] using hcontract
      obtain ⟨t, ht, _⟩ := startStep_idle (s := { s with agenda := rest }) hb
      exact ⟨t, ht⟩
    | readBuf i n =>
      obtain ⟨hsize, hwritten⟩ : i + n ≤ s.cfg.bufSize
          ∧ ∀ k < n, (s.buf.read (i + k)).isSome = true := by
        simpa [hostKeepsContract, ha] using hcontract
      exact hostReadBuf_completes (s := { s with agenda := rest }) hsize hwritten
    | nextLine => exact programStep_completes _
    | _ => exact ⟨_, rfl⟩

/-! ## The counters of a bulk operation -/

/-- What a step of a bulk operation from `s` leaves in the counters of `t`. -/
structure CountersLeft (s t : State) : Prop where
  total : t.total = s.total
  sum : t.status ≠ .sinkWrite → t.offset.toNat + t.remaining.toNat = t.total.toNat
  sinkShort : t.status = .sinkWrite → t.offset.toNat + t.remaining.toNat < t.total.toNat
  stopped : t.status = .shortTransfer → t.offset.toNat < t.total.toNat
  done : t.status = .ok → t.offset = t.total

/-- While the operation runs on it has no result, and its counters add up. -/
theorem countersLeft_running {s t : State} (htotal : t.total = s.total)
    (hsum : t.offset.toNat + t.remaining.toNat = s.total.toNat) (hr : t.status = .none) :
    CountersLeft s t where
  total := htotal
  sum _ := by rw [hsum, htotal]
  sinkShort h := by simp [hr] at h
  stopped h := by simp [hr] at h
  done h := by simp [hr] at h

/-- Where counters that add up are left by `finish`, a short transfer has bytes left and success has
none. -/
theorem countersLeft_finish {s u : State} {code : Status} {cause : Cause}
    (htotal : u.total = s.total) (hsum : u.offset.toNat + u.remaining.toNat = s.total.toNat)
    (hsink : code ≠ .sinkWrite) (hshort : code = .shortTransfer → u.remaining ≠ 0)
    (hok : code = .ok → u.remaining = 0) : CountersLeft s (finish code cause u) where
  total := htotal
  sum _ := by simp only [finish_offset, finish_remaining, finish_total, hsum, htotal]
  sinkShort h := absurd h hsink
  stopped h := by
    have hpos : u.remaining.toNat ≠ 0 := fun hz => hshort h (BitVec.eq_of_toNat_eq hz)
    simp only [finish_offset, finish_total, htotal]
    omega
  done h := by
    have hzero : u.remaining.toNat = 0 := congrArg BitVec.toNat (hok h)
    apply BitVec.eq_of_toNat_eq
    simp only [finish_offset, finish_total, htotal]
    omega

/-- R250: a bulk operation that times out or is cancelled with bytes left. -/
theorem countersLeft_stopped {s : State} {cause : Cause}
    (hsum : s.offset.toNat + s.remaining.toNat = s.total.toNat) (hleft : s.remaining ≠ 0) :
    CountersLeft s (finish .shortTransfer cause s) :=
  countersLeft_finish rfl hsum (by simp) (fun _ => hleft) (by simp)

theorem bufCommit_counters {bs : List Byte} {s : State}
    (hsum : s.offset.toNat + s.remaining.toNat = s.total.toNat) (hr : s.status = .none)
    (hn : bs.length ≤ s.remaining.toNat) : CountersLeft s (bufCommit bs s) := by
  have hmoved : (bufMoved bs s).offset.toNat + (bufMoved bs s).remaining.toNat = s.total.toNat :=
    counters_moved hsum hn
  rcases bufCommit_cases bs s with ⟨hzero, e⟩ | ⟨_, e⟩ <;> rw [e]
  · exact countersLeft_finish rfl hmoved (by simp) (by simp) (fun _ => hzero)
  · exact countersLeft_running rfl hmoved hr

/-- R190: a sink that falls short leaves bytes that were read and not appended, in neither
counter. -/
theorem sinkCommit_counters {bs : List Byte} {s : State}
    (hsum : s.offset.toNat + s.remaining.toNat = s.total.toNat) (hr : s.status = .none)
    (hn : bs.length ≤ s.remaining.toNat) : CountersLeft s (sinkCommit bs s) := by
  have hmoved (hall : (sinkAppend bs s).1 = bs.length) :
      (sinkMoved bs s).offset.toNat + (sinkMoved bs s).remaining.toNat = s.total.toNat := by
    simpa [sinkMoved, hall] using counters_moved hsum hn
  rcases sinkCommit_cases bs s with ⟨hshort, e⟩ | ⟨hall, hzero, e⟩ | ⟨hall, _, e⟩ <;> rw [e]
  · have hoffset := countUp_toNat_of_left hsum (hshort.le.trans hn)
    have hlost : (sinkMoved bs s).offset.toNat + (sinkMoved bs s).remaining.toNat
        < s.total.toNat := by
      simp only [sinkMoved, hoffset, countDown_toNat]
      omega
    exact
      { total := rfl
        sum := absurd rfl
        sinkShort := fun _ => hlost
        stopped := nofun
        done := nofun }
  · exact countersLeft_finish rfl (hmoved hall) (by simp) (by simp) (fun _ => hzero)
  · exact countersLeft_running rfl (hmoved hall) hr

theorem sendAccepted_counters {m : Nat} {s : State}
    (hsum : s.offset.toNat + s.remaining.toNat = s.total.toNat) (hr : s.status = .none)
    (hm : m ≤ s.remaining.toNat) : CountersLeft s (sendAccepted m s) := by
  have hmoved := counters_moved hsum hm
  rcases sendAccepted_cases m s with ⟨_, e⟩ | ⟨_, e⟩ <;> rw [e]
  · exact countersLeft_running rfl hmoved hr
  · exact countersLeft_running rfl hmoved hr

theorem recvBufIterate_counters {s : State} (h : Inv s) (hp : s.phase = .bufRun)
    (hr : s.status = .none) : CountersLeft s (recvBufIterate s) := by
  have hsum := h.counters (by simp [hp, isBulk])
  have hleft := h.bytesLeft (.inl hp)
  rcases recvBufIterate_cases s with
    ⟨_, e⟩ | ⟨_, _, _, e⟩ | ⟨_, _, _, e⟩ | ⟨_, _, _, e⟩ | ⟨_, _, _, e⟩ <;> rw [e]
  · exact countersLeft_stopped hsum hleft
  · exact countersLeft_stopped hsum hleft
  · exact countersLeft_running rfl hsum hr
  · exact countersLeft_finish rfl hsum (by simp) (by simp) (by simp)
  · exact { bufCommit_counters (s := (transportRead (bufAsk s) s).2) hsum hr
      (transportRead_spec (bufAsk s) s).1 with }

theorem recvSinkIterate_counters {s : State} (h : Inv s) (hp : s.phase = .sinkRun)
    (hr : s.status = .none) : CountersLeft s (recvSinkIterate s) := by
  have hsum := h.counters (by simp [hp, isBulk])
  have hleft := h.bytesLeft (.inr (.inl hp))
  rcases recvSinkIterate_cases s with ⟨_, e⟩ | ⟨_, _, _, e⟩ | ⟨_, _, _, e⟩ | ⟨_, _, e⟩ <;> rw [e]
  · exact countersLeft_stopped hsum hleft
  · exact countersLeft_stopped hsum hleft
  · exact countersLeft_running rfl hsum hr
  · have hn := (transportRead_spec (sinkAsk s) s).1.trans (Nat.min_le_left _ _)
    exact { sinkCommit_counters (s := (transportRead (sinkAsk s) s).2) hsum hr hn with }

theorem sendFetchIterate_counters {s : State} (h : Inv s) (hp : s.phase = .sendFetch)
    (hr : s.status = .none) : CountersLeft s (sendFetchIterate s) := by
  have hsum := h.counters (by simp [hp, isBulk])
  rcases sendFetchIterate_cases s with ⟨hzero, e⟩ | ⟨hleft, _, e⟩ | ⟨_, _, _, e⟩ | ⟨_, _, _, e⟩ <;>
    rw [e]
  · exact countersLeft_finish rfl hsum (by simp) (by simp) (fun _ => hzero)
  · exact countersLeft_stopped hsum hleft
  · exact countersLeft_finish rfl hsum (by simp) (by simp) (by simp)
  · exact countersLeft_running rfl hsum hr

theorem sendWriteIterate_counters {s t : State} (h : Inv s) (hp : s.phase = .sendWrite)
    (hr : s.status = .none) (ht : sendWriteIterate s = .next t) : CountersLeft s t := by
  have hsum := h.counters (by simp [hp, isBulk])
  have hleft := h.bytesLeft (.inr (.inr hp))
  rcases sendWriteIterate_cases s with ⟨_, e⟩ | ⟨_, i, _, e⟩ | ⟨_, chunk, hread, _, e⟩
    | ⟨_, chunk, _, _, _, e⟩ | ⟨_, chunk, _, _, _, e⟩ <;> rw [e] at ht <;> cases ht
  · exact countersLeft_stopped hsum hleft
  · have hm : (transportWrite chunk s).1 ≤ s.remaining.toNat :=
      calc (transportWrite chunk s).1 ≤ chunk.length := (transportWrite_spec chunk s).1
        _ = writeAsk s := (Memory.readBytes_ok hread).1
        _ ≤ s.remaining.toNat := (h.chunkLeft hp).2
    exact { sendAccepted_counters (s := (transportWrite chunk s).2) hsum hr hm with }
  · exact countersLeft_stopped hsum hleft
  · exact countersLeft_running rfl hsum hr

theorem endWait_counters {s : State}
    (hsum : s.offset.toNat + s.remaining.toNat = s.total.toNat) (hr : s.status = .none) :
    CountersLeft s (endWait s) := by
  rcases endWait_cases s with ⟨_, e⟩ | ⟨_, e⟩ <;> rw [e] <;> exact countersLeft_running rfl hsum hr

/-- R33, R250: every turn of a bulk operation. -/
theorem blockTurn_counters {s t : State} (h : Inv s) (hbulk : isBulk s.phase = true)
    (ht : BlockTurn s t) : CountersLeft s t := by
  have hi : s.phase ≠ .idle := fun hp => by simp [hp, isBulk] at hbulk
  have hr := (h.noResult (h.busyPhase.2 hi)).1
  cases ht with
  | idle => exact countersLeft_running rfl (h.counters hbulk) hr
  | wait => exact endWait_counters (h.counters hbulk) hr
  | request _ _ hp => simp [hp, isBulk] at hbulk
  | recvLen _ _ hp => simp [hp, isBulk] at hbulk
  | recvBuf _ _ hp => exact recvBufIterate_counters h hp hr
  | recvSink _ _ hp => exact recvSinkIterate_counters h hp hr
  | fetch _ _ hp => exact sendFetchIterate_counters h hp hr
  | write _ _ hp ht => exact sendWriteIterate_counters h hp hr ht

/-- Settles O53: the counters a turn of a bulk operation leaves. -/
theorem bulkCountersAddUp : Obligations.BulkCountersAddUp := by
  intro s t a rest h ha hbulk hstep
  have hleft := blockTurn_counters (s := { s with agenda := rest, answers := a }) { h with } hbulk
    (step_block_next ha hstep).2
  exact ⟨hleft.total, hleft.sum, hleft.sinkShort, hleft.stopped, hleft.done⟩

end Sys2Proof.Machine
end

section
/-! PROOFS. The family of 10_state.md, fifth part: what single registers depend on: RESULT_LEN and
RXSM (R24, R27), and PROGRESS_COUNT, which nothing reads (R38). -/

namespace Sys2Proof.Machine

/-! ## RXSM and RESULT_LEN (R24, R27) -/

/-- From `s` to `t` neither `RXSM` nor `RESULT_LEN` is written. -/
def KeepsLength (s t : State) : Prop := t.rxsm = s.rxsm ∧ t.resultLen = s.resultLen

theorem sendFrame_keepsLength (cmd : Byte) (s : State) : KeepsLength s (sendFrame cmd s) := by
  simp only [sendFrame]
  split <;> exact ⟨rfl, rfl⟩

theorem recvBufIterate_keepsLength (s : State) : KeepsLength s (recvBufIterate s) := by
  rcases recvBufIterate_cases s with
    ⟨_, e⟩ | ⟨_, _, _, e⟩ | ⟨_, _, _, e⟩ | ⟨_, _, _, e⟩ | ⟨_, _, _, e⟩ <;> rw [e]
  case inr.inr.inr.inr =>
    rcases bufCommit_cases (transportRead (bufAsk s) s).1 (transportRead (bufAsk s) s).2 with
      ⟨_, e⟩ | ⟨_, e⟩ <;> rw [e] <;> exact ⟨rfl, rfl⟩
  all_goals exact ⟨rfl, rfl⟩

@[simp] theorem sinkMoved_rxsm (bs : List Byte) (s : State) : (sinkMoved bs s).rxsm = s.rxsm := by
  simp [sinkMoved]

@[simp] theorem sinkMoved_resultLen (bs : List Byte) (s : State) :
    (sinkMoved bs s).resultLen = s.resultLen := by
  simp [sinkMoved]

theorem recvSinkIterate_keepsLength (s : State) : KeepsLength s (recvSinkIterate s) := by
  rcases recvSinkIterate_cases s with ⟨_, e⟩ | ⟨_, _, _, e⟩ | ⟨_, _, _, e⟩ | ⟨_, _, e⟩ <;> rw [e]
  case inr.inr.inr =>
    rcases sinkCommit_cases (transportRead (sinkAsk s) s).1 (transportRead (sinkAsk s) s).2 with
      ⟨_, e⟩ | ⟨_, _, e⟩ | ⟨_, _, e⟩ <;> rw [e] <;> simp [KeepsLength]
  all_goals exact ⟨rfl, rfl⟩

theorem sendFetchIterate_keepsLength (s : State) : KeepsLength s (sendFetchIterate s) := by
  rcases sendFetchIterate_cases s with ⟨_, e⟩ | ⟨_, _, e⟩ | ⟨_, _, _, e⟩ | ⟨_, _, _, e⟩ <;>
    rw [e] <;> exact ⟨rfl, rfl⟩

theorem sendWriteIterate_keepsLength {s t : State} (ht : sendWriteIterate s = .next t) :
    KeepsLength s t := by
  rcases sendWriteIterate_cases s with ⟨_, e⟩ | ⟨_, i, _, e⟩ | ⟨_, chunk, _, _, e⟩
    | ⟨_, chunk, _, _, _, e⟩ | ⟨_, chunk, _, _, _, e⟩ <;> rw [e] at ht <;> cases ht
  case inr.inr.inl =>
    rcases sendAccepted_cases (transportWrite chunk s).1 (transportWrite chunk s).2 with
      ⟨_, e⟩ | ⟨_, e⟩ <;> rw [e] <;> exact ⟨rfl, rfl⟩
  all_goals exact ⟨rfl, rfl⟩

theorem endWait_keepsLength (s : State) : KeepsLength s (endWait s) := by
  rcases endWait_cases s with ⟨_, e⟩ | ⟨_, e⟩ <;> rw [e] <;> exact ⟨rfl, rfl⟩

/-- R24, R27: no turn but one of RECV_LEN writes either register. -/
theorem blockTurn_keepsLength {s t : State} (hp : s.phase ≠ .rxRun) (ht : BlockTurn s t) :
    KeepsLength s t := by
  cases ht with
  | idle => exact ⟨rfl, rfl⟩
  | wait => exact endWait_keepsLength s
  | request => exact sendFrame_keepsLength _ s
  | recvLen _ _ h => exact absurd h hp
  | recvBuf => exact recvBufIterate_keepsLength s
  | recvSink => exact recvSinkIterate_keepsLength s
  | fetch => exact sendFetchIterate_keepsLength s
  | write _ _ _ ht => exact sendWriteIterate_keepsLength ht

/-- The end of RECV_LEN with a decoded length (R157). -/
structure LengthDecoded (t : State) : Prop where
  status : t.status = .ok
  rxsm : t.rxsm = .done
  result : t.resultLen = t.lenAcc
  busy : t.busy = false

/-- R157: only the fourth length byte writes `RESULT_LEN`. -/
theorem receive_resultLen (b : Byte) (bs : List Byte) (s : State) :
    (receive b bs s).resultLen = s.resultLen ∨ LengthDecoded (receive b bs s) := by
  rcases receive_cases b bs s with e | ⟨_, _, e⟩ | ⟨_, _, e⟩ | ⟨_, _, e⟩ | ⟨_, _, e⟩ | ⟨_, e⟩ <;>
    rw [e]
  case inr.inr.inr.inr.inr =>
    rcases readLength_cases bs s with ⟨_, e⟩ | ⟨_, e⟩ <;> rw [e]
    · exact .inr ⟨rfl, rfl, rfl, rfl⟩
    · exact .inl rfl
  all_goals exact .inl rfl

theorem recvLenIterate_resultLen (s : State) :
    (recvLenIterate s).resultLen = s.resultLen ∨ LengthDecoded (recvLenIterate s) := by
  rcases recvLenIterate_cases s with ⟨_, e⟩ | ⟨_, _, _, e⟩ | ⟨_, _, _, e⟩ | ⟨_, b, bs, _, e⟩ <;>
    rw [e]
  case inr.inr.inr => exact receive_resultLen b (b :: bs) _
  all_goals exact .inl rfl

/-- R27: a turn that writes `RESULT_LEN` is the one in which RECV_LEN ends with `OK`. -/
theorem blockTurn_resultLen {s t : State} (ht : BlockTurn s t) :
    t.resultLen = s.resultLen ∨ LengthDecoded t := by
  by_cases hp : s.phase = .rxRun
  · cases ht with
    | idle => exact .inl rfl
    | wait => exact .inl (endWait_keepsLength s).2
    | recvLen => exact recvLenIterate_resultLen s
    | request _ _ h => cases hp.symm.trans h
    | recvBuf _ _ h => cases hp.symm.trans h
    | recvSink _ _ h => cases hp.symm.trans h
    | fetch _ _ h => cases hp.symm.trans h
    | write _ _ h => cases hp.symm.trans h
  · exact .inl (blockTurn_keepsLength hp ht).2

/-- Settles O46: a turn of RECV_LEN is its iteration, and no other turn writes the two registers. -/
theorem resultLenOnlyOnSuccess : Obligations.ResultLenOnlyOnSuccess := by
  intro s t a rest ha h
  have hturn := (step_block_next ha h).2
  refine ⟨fun hp => ?_, fun hne => ?_⟩
  · exact blockTurn_keepsLength (s := { s with agenda := rest, answers := a }) hp hturn
  · have hdone := (blockTurn_resultLen hturn).resolve_left hne
    exact ⟨hdone.status, hdone.rxsm, hdone.result, hdone.busy⟩

/-! ## PROGRESS_COUNT (R38) -/

/-- `s` with `d` more on its progress counter. -/
def addProgress (d : U32) (s : State) : State := { s with progressCount := s.progressCount + d }

theorem setProgress_eq_addProgress (c : U32) (s : State) :
    { s with progressCount := c } = addProgress (c - s.progressCount) s := by
  simp [addProgress]

/-- R38: PROGRESS is the one operation that writes the counter, and it only adds to it. -/
theorem emitProgress_addProgress (d : U32) (s : State) :
    emitProgress (addProgress d s) = addProgress d (emitProgress s) := by
  simp [emitProgress, addProgress, add_right_comm]

theorem zeroTransfer_addProgress {expired : State → State} (d : U32) (poll : Nat) (s : State)
    (h : expired (addProgress d s) = addProgress d (expired s)) :
    zeroTransfer poll expired (addProgress d s) = addProgress d (zeroTransfer poll expired s) :=
  calc zeroTransfer poll expired (addProgress d s)
      = if s.deadline ≤ s.now then expired (addProgress d s)
        else addProgress d (startWait poll .poll s) := rfl
    _ = addProgress d (zeroTransfer poll expired s) := by
      rw [h, zeroTransfer, apply_ite (addProgress d)]

theorem endWait_addProgress (d : U32) (s : State) :
    endWait (addProgress d s) = addProgress d (endWait s) :=
  (apply_ite (addProgress d) (s.wake ≤ s.now) { s with waiting := false } s).symm

theorem sendFrame_addProgress (cmd : Byte) (d : U32) (s : State) :
    sendFrame cmd (addProgress d s) = addProgress d (sendFrame cmd s) := by
  simp only [sendFrame, apply_ite (addProgress d)]
  rfl

theorem seekDle_addProgress (b : Byte) (d : U32) (s : State) :
    seekDle b (addProgress d s) = addProgress d (seekDle b s) := by
  simp only [seekDle, apply_ite (addProgress d)]
  rfl

theorem seekStx_addProgress (b : Byte) (d : U32) (s : State) :
    seekStx b (addProgress d s) = addProgress d (seekStx b s) := by
  simp only [seekStx, apply_ite (addProgress d)]
  rfl

theorem readLength_addProgress (bs : List Byte) (d : U32) (s : State) :
    readLength bs (addProgress d s) = addProgress d (readLength bs s) := by
  simp only [readLength, apply_ite (addProgress d)]
  rfl

theorem receive_addProgress (b : Byte) (bs : List Byte) (d : U32) (s : State) :
    receive b bs (addProgress d s) = addProgress d (receive b bs s) := by
  have hx : (addProgress d s).rxsm = s.rxsm := rfl
  unfold receive
  rw [hx]
  cases s.rxsm with
  | seekDle => exact seekDle_addProgress b d s
  | seekStx => exact seekStx_addProgress b d s
  | readLength => exact readLength_addProgress bs d s
  | _ => rfl

theorem recvLenIterate_addProgress (d : U32) (s : State) :
    recvLenIterate (addProgress d s) = addProgress d (recvLenIterate s) := by
  have hread : transportRead (rxAsk (addProgress d s)) (addProgress d s)
      = ((transportRead (rxAsk s) s).1, addProgress d (transportRead (rxAsk s) s).2) := rfl
  have hc : (addProgress d s).cancel = s.cancel := rfl
  simp only [recvLenIterate, hread, hc]
  split
  · rfl
  · split
    · exact zeroTransfer_addProgress _ _ _ rfl
    · exact receive_addProgress _ _ d (setDeadline (transportRead (rxAsk s) s).2)

theorem bufCommit_addProgress (bs : List Byte) (d : U32) (s : State) :
    bufCommit bs (addProgress d s) = addProgress d (bufCommit bs s) := by
  have hmoved : bufMoved bs (addProgress d s) = addProgress d (bufMoved bs s) :=
    emitProgress_addProgress d (setDeadline { s with
      buf := s.buf.writeBytes s.offset.toNat bs,
      offset := countUp s.offset bs.length,
      remaining := countDown s.remaining bs.length })
  calc bufCommit bs (addProgress d s)
      = if (bufMoved bs (addProgress d s)).remaining = 0
        then finish .ok .none (bufMoved bs (addProgress d s))
        else bufMoved bs (addProgress d s) := rfl
    _ = if (bufMoved bs s).remaining = 0
        then addProgress d (finish .ok .none (bufMoved bs s))
        else addProgress d (bufMoved bs s) := by rw [hmoved]; rfl
    _ = addProgress d (bufCommit bs s) := (apply_ite (addProgress d) _ _ _).symm

theorem recvBufIterate_addProgress (d : U32) (s : State) :
    recvBufIterate (addProgress d s) = addProgress d (recvBufIterate s) := by
  have hread : transportRead (bufAsk (addProgress d s)) (addProgress d s)
      = ((transportRead (bufAsk s) s).1, addProgress d (transportRead (bufAsk s) s).2) := rfl
  have hc : (addProgress d s).cancel = s.cancel := rfl
  have hcap : (addProgress d s).capacityR = s.capacityR := rfl
  have hoff : (addProgress d s).offset = s.offset := rfl
  simp only [recvBufIterate, hread, hc, hcap, hoff]
  split
  · rfl
  · split
    · exact zeroTransfer_addProgress _ _ _ rfl
    · split
      · rfl
      · exact bufCommit_addProgress _ d _

theorem sinkMoved_addProgress (bs : List Byte) (d : U32) (s : State) :
    sinkMoved bs (addProgress d s) = addProgress d (sinkMoved bs s) := rfl

theorem sinkCommit_eq (bs : List Byte) (s : State) :
    sinkCommit bs s = if (sinkAppend bs s).1 < bs.length
      then finish .sinkWrite .shortAccept (sinkMoved bs s)
      else if (sinkMoved bs s).remaining = 0 then finish .ok .none (emitProgress (sinkMoved bs s))
      else emitProgress (sinkMoved bs s) := rfl

theorem sinkCommit_addProgress (bs : List Byte) (d : U32) (s : State) :
    sinkCommit bs (addProgress d s) = addProgress d (sinkCommit bs s) := by
  simp only [sinkCommit_eq, sinkMoved_addProgress, emitProgress_addProgress,
    apply_ite (addProgress d)]
  rfl

theorem recvSinkIterate_addProgress (d : U32) (s : State) :
    recvSinkIterate (addProgress d s) = addProgress d (recvSinkIterate s) := by
  have hread : transportRead (sinkAsk (addProgress d s)) (addProgress d s)
      = ((transportRead (sinkAsk s) s).1, addProgress d (transportRead (sinkAsk s) s).2) := rfl
  have hc : (addProgress d s).cancel = s.cancel := rfl
  simp only [recvSinkIterate, hread, hc]
  split
  · rfl
  · split
    · exact zeroTransfer_addProgress _ _ _ rfl
    · exact sinkCommit_addProgress _ d _

theorem sendFetchIterate_addProgress (d : U32) (s : State) :
    sendFetchIterate (addProgress d s) = addProgress d (sendFetchIterate s) := by
  simp only [sendFetchIterate, apply_ite (addProgress d)]
  rfl

theorem sendMoved_addProgress (m : Nat) (d : U32) (s : State) :
    sendMoved m (addProgress d s) = addProgress d (sendMoved m s) := rfl

theorem sendAccepted_eq (m : Nat) (s : State) :
    sendAccepted m s = if countUp s.txcPos m = s.txcLen
      then startWait s.cfg.dThrottle .throttle
        { emitProgress (sendMoved m s) with phase := .sendFetch }
      else sendMoved m s := rfl

theorem sendAccepted_addProgress (m : Nat) (d : U32) (s : State) :
    sendAccepted m (addProgress d s) = addProgress d (sendAccepted m s) := by
  simp only [sendAccepted_eq, sendMoved_addProgress, emitProgress_addProgress,
    apply_ite (addProgress d)]
  rfl

theorem sendWriteIterate_addProgress (d : U32) (s : State) :
    sendWriteIterate (addProgress d s) = mapNext (addProgress d) (sendWriteIterate s) := by
  have hread : (addProgress d s).txc.readBytes (addProgress d s).txcPos.toNat
      (writeAsk (addProgress d s)) = s.txc.readBytes s.txcPos.toNat (writeAsk s) := rfl
  have hc : (addProgress d s).cancel = s.cancel := rfl
  have hwrite (chunk : List Byte) : transportWrite chunk (addProgress d s)
      = ((transportWrite chunk s).1, addProgress d (transportWrite chunk s).2) := rfl
  simp only [sendWriteIterate, hread, hc, hwrite]
  split
  · rfl
  · split
    · rfl
    · split
      · exact congrArg Host.Outcome.next (sendAccepted_addProgress _ d _)
      · exact congrArg Host.Outcome.next (zeroTransfer_addProgress _ _ _ rfl)

theorem iteration_addProgress (d : U32) (s : State) :
    iteration (addProgress d s) = mapNext (addProgress d) (iteration s) := by
  have hp : (addProgress d s).phase = s.phase := rfl
  unfold iteration
  rw [hp]
  cases s.phase with
  | idle => rfl
  | reqSend => exact congrArg Host.Outcome.next (sendFrame_addProgress s.cmdR d s)
  | rxRun => exact congrArg Host.Outcome.next (recvLenIterate_addProgress d s)
  | bufRun => exact congrArg Host.Outcome.next (recvBufIterate_addProgress d s)
  | sinkRun => exact congrArg Host.Outcome.next (recvSinkIterate_addProgress d s)
  | sendFetch => exact congrArg Host.Outcome.next (sendFetchIterate_addProgress d s)
  | sendWrite => exact sendWriteIterate_addProgress d s

/-- R38: a turn of the block carries a surplus on the counter through unchanged. -/
theorem blockStep_addProgress (d : U32) (s : State) :
    blockStep (addProgress d s) = mapNext (addProgress d) (blockStep s) := by
  by_cases hidle : s.busy = false ∨ s.phase = .idle
  · rw [blockStep_idle hidle, blockStep_idle (s := addProgress d s) hidle]
    rfl
  · obtain ⟨hb, hi⟩ : s.busy = true ∧ s.phase ≠ .idle := by simpa using hidle
    have hw : (addProgress d s).waiting = s.waiting := rfl
    rw [blockStep_running hb hi, blockStep_running (s := addProgress d s) hb hi, hw,
      endWait_addProgress, iteration_addProgress, apply_ite (mapNext (addProgress d))]
    rfl

/-- Settles O49: another value of the counter is a surplus on it. -/
theorem progressCountNotRead : Obligations.ProgressCountNotRead := by
  intro s c a rest ha
  rw [setProgress_eq_addProgress]
  cases hv : s.cfg.valid with
  | false => rw [step_invalid hv, step_invalid (s := addProgress _ s) hv]; rfl
  | true =>
    rw [step_block hv ha, step_block (s := addProgress _ s) hv ha]
    exact blockStep_addProgress _ { s with agenda := rest, answers := a }

end Sys2Proof.Machine
end

section
/-! PROOFS. The family of 10_state.md, sixth part: the length accumulator (R25, R157), what is no
step (R21, R265), the reset step (R290) and the host's read of `BUF` (R46, R49). -/

namespace Sys2Proof.Machine

/-! ## The length accumulator (R25, R157) -/

/-- R25: accumulating reads one after another is accumulating their bytes. -/
theorem foldl_accumulate (reads : List (List Byte)) (acc : U32) :
    reads.foldl accumulate acc = accumulate acc reads.flatten :=
  List.foldl_flatten.symm

/-- R12, R25: four bytes push out whatever the accumulator held. -/
theorem accumulate_four (acc : U32) (b0 b1 b2 b3 : Byte) :
    accumulate acc [b0, b1, b2, b3] = be32 b0 b1 b2 b3 := by
  have h0 := b0.isLt
  have h1 := b1.isLt
  have h2 := b2.isLt
  have h3 := b3.isLt
  apply BitVec.eq_of_toNat_eq
  simp only [be32_toNat, accumulate, List.foldl_cons, List.foldl_nil, BitVec.toNat_ofNat]
  omega

/-- Settles O8: the split is forgotten by the accumulator, and then the four bytes are its value. -/
theorem lengthIndependentOfSplit : Obligations.LengthIndependentOfSplit := by
  intro reads b0 b1 b2 b3 h
  rw [foldl_accumulate, h, accumulate_four]

/-- R152: the bytes a read of RECV_LEN returns in `READ_LENGTH`. -/
theorem transportRead_readLength {s : State} (hx : s.rxsm = .readLength) :
    (transportRead (rxAsk s) s).1 = s.rx.take (min (4 - s.lenCount.toNat) s.answers.read) := by
  rw [rxAsk_readLength hx]
  rfl

/-- R157, R158: a read of some length bytes resets the deadline and takes them. -/
theorem recvLenIterate_readLength {s : State} (hc : s.cancel = false) (hx : s.rxsm = .readLength)
    (hne : (transportRead (rxAsk s) s).1 ≠ []) :
    recvLenIterate s = readLength (transportRead (rxAsk s) s).1
      (setDeadline (transportRead (rxAsk s) s).2) := by
  obtain ⟨b, bs, hr⟩ := List.exists_cons_of_ne_nil hne
  simp [recvLenIterate, hc, hr, receive, hx]

/-- Settles O24: the iteration is `readLength` on the bytes of the read, which ends RECV_LEN exactly
where the count reaches 4. -/
theorem readLengthAccumulates : Obligations.ReadLengthAccumulates := by
  intro s bs hb hp hw hc hx hbs hne acc hacc
  obtain rfl : accumulate s.lenAcc bs = acc := hacc.symm
  have hread : (transportRead (rxAsk s) s).1 = bs := (transportRead_readLength hx).trans hbs.symm
  have hrx : (transportRead (rxAsk s) s).2.rx = s.rx.drop bs.length :=
    hread ▸ (transportRead_spec (rxAsk s) s).2.2
  have hstate : (transportRead (rxAsk s) s).2 = { s with rx := s.rx.drop bs.length } := by
    rw [← hrx]
    rfl
  have hexec : exec .recvLen s
      = .next (readLength bs (setDeadline { s with rx := s.rx.drop bs.length })) := by
    rw [exec_recvLen, operationStep_iterate hb (by simp [hp]) hw,
      recvLenIterate_readLength hc hx (hread ▸ hne), hread, hstate]
  rw [hexec]
  refine ⟨fun hlt => ?_, fun hfour => ?_⟩
  · have hcount : BitVec.ofNat 3 (s.lenCount.toNat + bs.length) ≠ 4#3 := fun h => by
      have := congrArg BitVec.toNat h
      rw [lenCount_toNat hlt.le] at this
      exact hlt.ne this
    rcases readLength_cases bs (setDeadline { s with rx := s.rx.drop bs.length }) with
      ⟨h, _⟩ | ⟨_, e⟩
    · exact absurd h hcount
    · rw [e]
      rfl
  · rcases readLength_cases bs (setDeadline { s with rx := s.rx.drop bs.length }) with
      ⟨_, e⟩ | ⟨h, _⟩
    · rw [e]
      rfl
    · exact absurd (congrArg (BitVec.ofNat 3) hfour) h

/-! ## What is no step (R21, R265) -/

/-- A frame of another command than the one a REQUEST is about to send is no step. -/
theorem frameStep_other {c : Byte} {s : State}
    (h : ¬ (s.busy = true ∧ s.phase = .reqSend ∧ s.cmdR = c)) : frameStep c s = .next s := by
  simp [frameStep, and_assoc, h]

/-- Settles O20, row by row: every row is the frame of its command. -/
theorem noFrameOutsideRequest : Obligations.NoFrameOutsideRequest := by
  intro i c s hrow h
  have hframe : exec i s = frameStep c s := by
    simp only [List.mem_cons, Prod.mk.injEq, List.not_mem_nil, or_false] at hrow
    rcases hrow with (⟨rfl, rfl⟩ | ⟨rfl, rfl⟩ | ⟨rfl, rfl⟩ | ⟨rfl, rfl⟩ | ⟨rfl, rfl⟩) | rfl <;> rfl
  rw [hframe, frameStep_other h]

/-- Settles O28: a header that is a step completes the header of a running RECV_LEN, which each of
the conditions excludes. -/
theorem noHeaderOutsideReadLength : Obligations.NoHeaderOutsideReadLength := by
  intro s n hout
  refine if_neg fun hcompleted => ?_
  obtain ⟨⟨hb, hp, hw, hc, hx⟩, hne, hlen, _⟩ := completedHeader_eq_some.1 hcompleted
  rw [transportRead_readLength hx, List.length_take] at hlen
  rcases hout with h | h | h | h | h | h | h
  · simp [hb] at h
  · exact h hp
  · simp [hw] at h
  · simp [hc] at h
  · exact h hx
  · omega
  · omega

/-- Settles O14: an idle block's turn passes. -/
theorem idleBlockTakesNoStep : Obligations.IdleBlockTakesNoStep := by
  intro s a rest hv ha hb
  rw [step_block hv ha]
  exact blockStep_idle (.inl hb)

/-! ## The reset step (R290) -/

/-- Settles O38: the move is `resetBlock`, whose memories are empty. -/
theorem resetStepWritesTheRegisters : Obligations.ResetStepWritesTheRegisters := by
  intro s rest hv ha
  refine ⟨resetBlock { s with agenda := rest }, ?_, rfl, fun a => ⟨rfl, rfl, rfl⟩⟩
  simp only [step, hv, ha, if_true, move]

/-! ## The host's read of `BUF` (R46, R49) -/

theorem step_readBuf {s : State} {i n : Nat} {rest : List Move} (hv : s.cfg.valid = true)
    (ha : s.agenda = .readBuf i n :: rest) :
    step s = hostReadBuf i n { s with agenda := rest } := by
  simp only [step, hv, ha, if_true, move]

/-- A read of `n` bytes fails at the first of them that has no written-mark. -/
theorem readBytes_eq_error {m : Memory} {a n k : Nat} (hk : k < n) (hnone : m.read (a + k) = none)
    (hbefore : ∀ j < k, (m.read (a + j)).isSome = true) :
    m.readBytes a n = .error (a + k) := by
  cases hread : m.readBytes a n with
  | ok bs =>
    obtain ⟨hlen, hbytes⟩ := Memory.readBytes_ok hread
    have := (hbytes k hk).symm.trans hnone
    rw [List.getElem?_eq_none_iff] at this
    omega
  | error i =>
    obtain ⟨hai, _, hi, hwritten⟩ := Memory.readBytes_error hread
    rcases Nat.lt_trichotomy i (a + k) with hlt | rfl | hgt
    · have := hbefore (i - a) (by omega)
      rw [Nat.add_sub_cancel' hai, hi] at this
      cases this
    · rfl
    · have := hwritten (a + k) (by omega) hgt
      rw [hnone] at this
      cases this

/-- Settles O39: outside `BUF`, all written, and a first unwritten byte. -/
theorem hostReadsOnlyWrittenBytes : Obligations.HostReadsOnlyWrittenBytes := by
  intro s i n rest hv ha hn
  rw [step_readBuf hv ha]
  refine ⟨fun hout => ?outside, fun hin hwritten => ?written,
    fun hin k hk hnone hbefore => ?unwritten⟩
  case outside =>
    exact ⟨max i s.cfg.bufSize, Nat.le_max_right _ _, Nat.max_lt.2 ⟨by omega, hout⟩, if_pos hout⟩
  case written =>
    obtain ⟨t, ht⟩ := hostReadBuf_completes (s := { s with agenda := rest }) hin hwritten
    obtain ⟨_, bs, hbs, rfl⟩ := hostReadBuf_next ht
    obtain ⟨hlen, hbytes⟩ := Memory.readBytes_ok hbs
    exact ⟨bs, hlen, fun k hk => (hbytes k hk).symm, ht⟩
  case unwritten =>
    have hread : s.buf.readBytes i n = .error (i + k) := readBytes_eq_error hk hnone hbefore
    simp [hostReadBuf, Nat.not_lt.2 hin, hread]

end Sys2Proof.Machine
end

section
/-! PROOFS. The family of 20_memory.md, first part: SEND transmits the source in order, each byte
once (R65, R67, R225, R228). -/

namespace Sys2Proof.Machine

/-- What a turn of a SEND that has streamed the source up to `s` leaves in `t`. -/
structure SendLeft (base : List Byte) (origin : Nat) (s t : State) : Prop where
  sent : t.tx = base ++ (s.source.drop origin).take t.offset.toNat
  running : t.busy = true → SendStream base origin t
  done : t.status = .ok → t.tx = base ++ (s.source.drop origin).take s.total.toNat

/-- A SEND that goes on has streamed the source and has no result yet. -/
theorem sendLeft_running {base : List Byte} {origin : Nat} {s t : State}
    (ht : SendStream base origin t) (hsource : t.source = s.source) (hr : t.status = .none) :
    SendLeft base origin s t where
  sent := hsource ▸ ht.sent
  running _ := ht
  done h := by simp [hr] at h

/-- A SEND that ends in a turn that transmits nothing leaves the stream as it is, and ends with `OK`
only with all of the source's bytes sent. -/
theorem sendLeft_finish {base : List Byte} {origin : Nat} {s u : State} {code : Status}
    {cause : Cause} (h : SendStream base origin s) (htx : u.tx = s.tx)
    (hoffset : u.offset = s.offset) (hok : code = .ok → s.offset = s.total) :
    SendLeft base origin s (finish code cause u) where
  sent := by rw [finish_tx, finish_offset, htx, hoffset, h.sent]
  running hb := by simp at hb
  done hdone := by rw [finish_tx, htx, h.sent, hok hdone]

theorem endWait_sendLeft {base : List Byte} {origin : Nat} {s : State}
    (h : SendStream base origin s) (hr : s.status = .none) :
    SendLeft base origin s (endWait s) := by
  rcases endWait_cases s with ⟨_, e⟩ | ⟨_, e⟩ <;> rw [e]
  · exact sendLeft_running { h with } rfl hr
  · exact sendLeft_running h rfl hr

/-- R222: a whole chunk fetched is the source's bytes that come next. -/
theorem sendStream_fetched {base : List Byte} {origin : Nat} {s : State}
    (h : SendStream base origin s) (hp : s.phase = .sendFetch)
    (hlen : (sourceRead (fetchAsk s) s).1.length = fetchAsk s) :
    SendStream base origin { (sourceRead (fetchAsk s) s).2 with
      txc := Memory.ofBytes (sourceRead (fetchAsk s) s).1,
      txcLen := BitVec.ofNat 32 (fetchAsk s), txcPos := 0, phase := .sendWrite } where
  running := .inr rfl
  sent := h.sent
  fetched := nofun
  chunkEnd _ := by simpa [hlen, h.fetched hp] using (fetchAsk_toNat s).symm
  chunk _ i hi := by
    obtain ⟨_, hnext, _⟩ := sourceRead_spec (fetchAsk s) s
    have hread := hnext i (by simpa only [hlen, fetchAsk_toNat] using hi)
    simp [hread, h.fetched hp]

theorem sendFetchIterate_sendLeft {base : List Byte} {origin : Nat} {s : State} (hinv : Inv s)
    (h : SendStream base origin s) (hp : s.phase = .sendFetch) (hr : s.status = .none) :
    SendLeft base origin s (sendFetchIterate s) := by
  rcases sendFetchIterate_cases s with ⟨hzero, e⟩ | ⟨_, _, e⟩ | ⟨_, _, _, e⟩ | ⟨_, _, hlen, e⟩ <;>
    rw [e]
  · have hsum := hinv.counters (by simp [hp, isBulk])
    have hall : s.offset = s.total := BitVec.eq_of_toNat_eq (by simpa [hzero] using hsum)
    exact sendLeft_finish h rfl rfl fun _ => hall
  · exact sendLeft_finish h rfl rfl nofun
  · exact sendLeft_finish h rfl rfl nofun
  · exact sendLeft_running (sendStream_fetched h hp hlen) rfl hr

/-- R224: what a write reads from the chunk are the source's bytes that come next. -/
theorem SendStream.chunk_eq {base : List Byte} {origin : Nat} {s : State} {chunk : List Byte}
    (h : SendStream base origin s) (hp : s.phase = .sendWrite)
    (hread : s.txc.readBytes s.txcPos.toNat (writeAsk s) = .ok chunk) :
    chunk = (s.source.drop (origin + s.offset.toNat)).take chunk.length := by
  obtain ⟨hlen, hbytes⟩ := Memory.readBytes_ok hread
  apply List.ext_getElem?
  intro k
  by_cases hk : k < chunk.length
  · have hin : s.txcPos.toNat + k < s.txcLen.toNat := by
      unfold writeAsk at hlen
      omega
    rw [List.getElem?_take, if_pos hk, List.getElem?_drop, ← hbytes k (hlen ▸ hk),
      h.chunk hp _ hin]
    congr 1
    omega
  · rw [List.getElem?_eq_none (by omega), List.getElem?_eq_none (by simp; omega)]

/-- R71, R225: the accepted bytes extend what was transmitted to the next bytes of the source. -/
theorem SendStream.sent_write {base : List Byte} {origin m : Nat} {s : State} {chunk : List Byte}
    (h : SendStream base origin s) (hp : s.phase = .sendWrite)
    (hread : s.txc.readBytes s.txcPos.toNat (writeAsk s) = .ok chunk) (hm : m ≤ chunk.length) :
    s.tx ++ chunk.take m = base ++ (s.source.drop origin).take (s.offset.toNat + m) := by
  have htake : chunk.take m = (s.source.drop (origin + s.offset.toNat)).take m := by
    rw [h.chunk_eq hp hread, List.take_take, Nat.min_eq_left hm]
  rw [htake, h.sent, List.append_assoc, List.take_add, List.drop_drop]

/-- R224, R225, R227: a write the transport accepts `m` bytes of, the last of the chunk among them
or not, streams the source on. -/
theorem sendStream_accepted {base chunk : List Byte} {origin : Nat} {s : State} (hinv : Inv s)
    (h : SendStream base origin s) (hp : s.phase = .sendWrite)
    (hread : s.txc.readBytes s.txcPos.toNat (writeAsk s) = .ok chunk) :
    SendStream base origin
      (sendAccepted (transportWrite chunk s).1 (transportWrite chunk s).2) := by
  obtain ⟨hm, _, htx⟩ := transportWrite_spec chunk s
  have hsent := h.sent_write hp hread hm
  have hask : chunk.length = s.txcLen.toNat - s.txcPos.toNat := (Memory.readBytes_ok hread).1
  obtain ⟨hlt, hleft⟩ := hinv.chunkLeft hp
  have hend := h.chunkEnd hp
  generalize (transportWrite chunk s).1 = m at hm htx hsent ⊢
  have hoffset : (countUp s.offset m).toNat = s.offset.toNat + m :=
    countUp_toNat_of_left (hinv.counters (by simp [hp, isBulk])) (by omega)
  have hpos : (countUp s.txcPos m).toNat = s.txcPos.toNat + m :=
    countUp_toNat (by have := s.txcLen.isLt; omega)
  have hstream : (transportWrite chunk s).2.tx
      = base ++ (s.source.drop origin).take (countUp s.offset m).toNat := by
    rw [htx, hsent, hoffset]
  rcases sendAccepted_cases m (transportWrite chunk s).2 with ⟨hlast, e⟩ | ⟨_, e⟩ <;> rw [e]
  · have hall : s.txcPos.toNat + m = s.txcLen.toNat := by rw [← hpos]; exact congrArg _ hlast
    have hfetched : s.sourcePos = origin + (countUp s.offset m).toNat := by omega
    exact
      { running := .inl rfl
        sent := hstream
        fetched := fun _ => hfetched
        chunkEnd := nofun
        chunk := nofun }
  · have hend' : s.sourcePos + (countUp s.txcPos m).toNat
        = origin + (countUp s.offset m).toNat + s.txcLen.toNat := by omega
    have hchunk (i : Nat) (hi : i < s.txcLen.toNat) : s.txc.read i
        = s.source[origin + (countUp s.offset m).toNat + i - (countUp s.txcPos m).toNat]? := by
      rw [h.chunk hp i hi]
      congr 1
      omega
    exact
      { running := .inr hp
        sent := hstream
        fetched := fun hfetch => by cases hp.symm.trans hfetch
        chunkEnd := fun _ => hend'
        chunk := fun _ => hchunk }

theorem sendAccepted_status (m : Nat) (s : State) : (sendAccepted m s).status = s.status := by
  rcases sendAccepted_cases m s with ⟨_, e⟩ | ⟨_, e⟩ <;> rw [e] <;> rfl

theorem sendWriteIterate_sendLeft {base : List Byte} {origin : Nat} {s t : State} (hinv : Inv s)
    (h : SendStream base origin s) (hp : s.phase = .sendWrite) (hr : s.status = .none)
    (ht : sendWriteIterate s = .next t) : SendLeft base origin s t := by
  rcases sendWriteIterate_cases s with ⟨_, e⟩ | ⟨_, i, _, e⟩ | ⟨_, chunk, hread, _, e⟩
    | ⟨_, chunk, _, _, _, e⟩ | ⟨_, chunk, _, _, _, e⟩ <;> rw [e] at ht <;> cases ht
  · exact sendLeft_finish h rfl rfl nofun
  · exact sendLeft_running (sendStream_accepted hinv h hp hread)
      (sendAccepted_frame _ _).source ((sendAccepted_status _ _).trans hr)
  · exact sendLeft_finish h rfl rfl nofun
  · exact sendLeft_running { h with } rfl hr

/-- R225, R228: every turn of a SEND streams the source on. -/
theorem blockTurn_sendLeft {base : List Byte} {origin : Nat} {s t : State} (hinv : Inv s)
    (h : SendStream base origin s) (ht : BlockTurn s t) : SendLeft base origin s t := by
  have hi : s.phase ≠ .idle := by rcases h.running with hp | hp <;> simp [hp]
  have hr := (hinv.noResult (hinv.busyPhase.2 hi)).1
  have hother {p : Phase} (hp : s.phase = p) (hf : p ≠ .sendFetch) (hw : p ≠ .sendWrite) : False :=
    h.running.elim (fun hfetch => hf (hp.symm.trans hfetch)) fun hwrite => hw (hp.symm.trans hwrite)
  cases ht with
  | idle => exact sendLeft_running h rfl hr
  | wait => exact endWait_sendLeft h hr
  | request _ _ hp => exact (hother hp nofun nofun).elim
  | recvLen _ _ hp => exact (hother hp nofun nofun).elim
  | recvBuf _ _ hp => exact (hother hp nofun nofun).elim
  | recvSink _ _ hp => exact (hother hp nofun nofun).elim
  | fetch _ _ hp => exact sendFetchIterate_sendLeft hinv h hp hr
  | write _ _ hp ht => exact sendWriteIterate_sendLeft hinv h hp hr ht

/-- Settles O58: what a turn of a streaming SEND leaves. -/
theorem sendStreamsTheSource : Obligations.SendStreamsTheSource := by
  intro s t a rest base origin hinv ha h hstep
  have hleft := blockTurn_sendLeft (s := { s with agenda := rest, answers := a }) { hinv with }
    (base := base) (origin := origin) { h with } (step_block_next ha hstep).2
  exact ⟨hleft.sent, hleft.running, hleft.done⟩

end Sys2Proof.Machine
end

section
/-! PROOFS. The family of 20_memory.md, second part: what a turn of the block takes from the receive
buffer (R69, R162) and what it writes to `BUF` (R61, R62). -/

namespace Sys2Proof.Machine

/-! ## Turns that touch neither -/

/-- From `s` to `t` neither `BUF` nor the receive buffer changes. -/
structure KeepsBuffers (s t : State) : Prop where
  buf : t.buf = s.buf
  rx : t.rx = s.rx

theorem receive_keepsBuffers (b : Byte) (bs : List Byte) (s : State) :
    KeepsBuffers s (receive b bs s) := by
  rcases receive_cases b bs s with e | ⟨_, _, e⟩ | ⟨_, _, e⟩ | ⟨_, _, e⟩ | ⟨_, _, e⟩ | ⟨_, e⟩ <;>
    rw [e]
  case inr.inr.inr.inr.inr =>
    rcases readLength_cases bs s with ⟨_, e⟩ | ⟨_, e⟩ <;> rw [e] <;> exact ⟨rfl, rfl⟩
  all_goals exact ⟨rfl, rfl⟩

theorem sinkCommit_keepsBuffers (bs : List Byte) (s : State) :
    KeepsBuffers s (sinkCommit bs s) := by
  rcases sinkCommit_cases bs s with ⟨_, e⟩ | ⟨_, _, e⟩ | ⟨_, _, e⟩ <;> rw [e] <;> exact ⟨rfl, rfl⟩

theorem sendFetchIterate_keepsBuffers (s : State) : KeepsBuffers s (sendFetchIterate s) := by
  rcases sendFetchIterate_cases s with ⟨_, e⟩ | ⟨_, _, e⟩ | ⟨_, _, _, e⟩ | ⟨_, _, _, e⟩ <;>
    rw [e] <;> exact ⟨rfl, rfl⟩

theorem sendWriteIterate_keepsBuffers {s t : State} (ht : sendWriteIterate s = .next t) :
    KeepsBuffers s t := by
  rcases sendWriteIterate_cases s with ⟨_, e⟩ | ⟨_, i, _, e⟩ | ⟨_, chunk, _, _, e⟩
    | ⟨_, chunk, _, _, _, e⟩ | ⟨_, chunk, _, _, _, e⟩ <;> rw [e] at ht <;> cases ht
  case inr.inr.inl =>
    rcases sendAccepted_cases (transportWrite chunk s).1 (transportWrite chunk s).2 with
      ⟨_, e⟩ | ⟨_, e⟩ <;> rw [e] <;> exact ⟨rfl, rfl⟩
  all_goals exact ⟨rfl, rfl⟩

theorem endWait_keepsBuffers (s : State) : KeepsBuffers s (endWait s) :=
  ⟨endWait_buf s, endWait_rx s⟩

/-! ## Turns that read -/

/-- From `s` to `t` at most `n` bytes leave the receive buffer, at its front. -/
def TakesAtMost (n : Nat) (s t : State) : Prop := ∃ k, t.rx = s.rx.drop k ∧ k ≤ n

theorem takesAtMost_of_rx_eq {n : Nat} {s t : State} (h : t.rx = s.rx) : TakesAtMost n s t :=
  ⟨0, h, Nat.zero_le n⟩

/-- R70: what is done with the bytes of one read takes no more bytes than the read asked for. -/
theorem takesAtMost_of_read {n : Nat} {s t : State} (h : t.rx = (transportRead n s).2.rx) :
    TakesAtMost n s t := by
  obtain ⟨hlen, _, hrx⟩ := transportRead_spec n s
  exact ⟨_, h.trans hrx, hlen⟩

theorem recvLenIterate_takesAtMost (s : State) : TakesAtMost (rxAsk s) s (recvLenIterate s) := by
  rcases recvLenIterate_cases s with ⟨_, e⟩ | ⟨_, _, _, e⟩ | ⟨_, _, _, e⟩ | ⟨_, b, bs, _, e⟩ <;>
    rw [e]
  case inr.inr.inr => exact takesAtMost_of_read (receive_keepsBuffers b (b :: bs) _).rx
  all_goals exact takesAtMost_of_rx_eq rfl

theorem bufCommit_rx (bs : List Byte) (s : State) : (bufCommit bs s).rx = s.rx := by
  rcases bufCommit_cases bs s with ⟨_, e⟩ | ⟨_, e⟩ <;> rw [e] <;> rfl

theorem recvBufIterate_takesAtMost (s : State) : TakesAtMost (bufAsk s) s (recvBufIterate s) := by
  rcases recvBufIterate_cases s with
    ⟨_, e⟩ | ⟨_, _, _, e⟩ | ⟨_, _, _, e⟩ | ⟨_, _, _, e⟩ | ⟨_, _, _, e⟩ <;> rw [e]
  · exact takesAtMost_of_rx_eq rfl
  · exact takesAtMost_of_rx_eq rfl
  · exact takesAtMost_of_rx_eq rfl
  · exact takesAtMost_of_read rfl
  · exact takesAtMost_of_read (bufCommit_rx _ _)

theorem recvSinkIterate_takesAtMost (s : State) :
    TakesAtMost (sinkAsk s) s (recvSinkIterate s) := by
  rcases recvSinkIterate_cases s with ⟨_, e⟩ | ⟨_, _, _, e⟩ | ⟨_, _, _, e⟩ | ⟨_, _, e⟩ <;> rw [e]
  case inr.inr.inr => exact takesAtMost_of_read (sinkCommit_keepsBuffers _ _).rx
  all_goals exact takesAtMost_of_rx_eq rfl

/-- The request size of the phase the block is in (R69); REQUEST discards instead of reading. -/
def readAsk (s : State) : Nat :=
  match s.phase with
  | .rxRun => rxAsk s
  | .bufRun => bufAsk s
  | .sinkRun => sinkAsk s
  | _ => 0

/-- R69: every turn but one of REQUEST. -/
theorem blockTurn_takesAtMost {s t : State} (hreq : s.phase ≠ .reqSend) (ht : BlockTurn s t) :
    TakesAtMost (readAsk s) s t := by
  cases ht with
  | idle => exact takesAtMost_of_rx_eq rfl
  | wait => exact takesAtMost_of_rx_eq (endWait_rx s)
  | request _ _ hp => exact absurd hp hreq
  | recvLen _ _ hp =>
    have hask : readAsk s = rxAsk s := by simp [readAsk, hp]
    exact hask ▸ recvLenIterate_takesAtMost s
  | recvBuf _ _ hp =>
    have hask : readAsk s = bufAsk s := by simp [readAsk, hp]
    exact hask ▸ recvBufIterate_takesAtMost s
  | recvSink _ _ hp =>
    have hask : readAsk s = sinkAsk s := by simp [readAsk, hp]
    exact hask ▸ recvSinkIterate_takesAtMost s
  | fetch => exact takesAtMost_of_rx_eq (sendFetchIterate_keepsBuffers s).rx
  | write _ _ _ ht => exact takesAtMost_of_rx_eq (sendWriteIterate_keepsBuffers ht).rx

/-- Settles O44: a turn reads at most once, and asks for the size the table gives its phase. -/
theorem readsTakeNoMoreThanAsked : Obligations.ReadsTakeNoMoreThanAsked := by
  intro s t a rest ha h hreq
  obtain ⟨k, hrx, hk⟩ := blockTurn_takesAtMost (s := { s with agenda := rest, answers := a }) hreq
    (step_block_next ha h).2
  refine ⟨k, hrx, ?_⟩
  cases hp : s.phase <;> simpa [readAsk, hp, rxAsk, bufAsk, sinkAsk] using hk

/-! ## Turns that write `BUF` -/

theorem sendFrame_buf (cmd : Byte) (s : State) : (sendFrame cmd s).buf = s.buf := by
  simp only [sendFrame]
  split <;> rfl

theorem recvLenIterate_buf (s : State) : (recvLenIterate s).buf = s.buf := by
  rcases recvLenIterate_cases s with ⟨_, e⟩ | ⟨_, _, _, e⟩ | ⟨_, _, _, e⟩ | ⟨_, b, bs, _, e⟩ <;>
    rw [e]
  case inr.inr.inr => exact (receive_keepsBuffers b (b :: bs) _).buf
  all_goals rfl

theorem recvSinkIterate_buf (s : State) : (recvSinkIterate s).buf = s.buf := by
  rcases recvSinkIterate_cases s with ⟨_, e⟩ | ⟨_, _, _, e⟩ | ⟨_, _, _, e⟩ | ⟨_, _, e⟩ <;> rw [e]
  case inr.inr.inr => exact (sinkCommit_keepsBuffers _ _).buf
  all_goals rfl

theorem bufCommit_buf (bs : List Byte) (s : State) :
    (bufCommit bs s).buf = s.buf.writeBytes s.offset.toNat bs := by
  rcases bufCommit_cases bs s with ⟨_, e⟩ | ⟨_, e⟩ <;> rw [e] <;> rfl

/-- R62: RECV_BUF commits a read only where all of it ends below the capacity. -/
theorem recvBufIterate_buf_above (s : State) {i : Nat} (hi : s.capacityR.toNat ≤ i) :
    (recvBufIterate s).buf.read i = s.buf.read i := by
  rcases recvBufIterate_cases s with
    ⟨_, e⟩ | ⟨_, _, _, e⟩ | ⟨_, _, _, e⟩ | ⟨_, _, _, e⟩ | ⟨_, _, hcap, e⟩ <;> rw [e]
  case inr.inr.inr.inr =>
    rw [bufCommit_buf, Memory.read_writeBytes, if_neg]
    · rfl
    · simp only [transportRead_offset]
      omega
  all_goals rfl

/-- R61: a turn that writes `BUF` is an iteration of RECV_BUF. -/
theorem blockTurn_buf {s t : State} (ht : BlockTurn s t) :
    t.buf = s.buf ∨ s.phase = .bufRun ∧ t = recvBufIterate s := by
  cases ht with
  | idle => exact .inl rfl
  | wait => exact .inl (endWait_buf s)
  | request => exact .inl (sendFrame_buf _ s)
  | recvLen => exact .inl (recvLenIterate_buf s)
  | recvBuf _ _ hp => exact .inr ⟨hp, rfl⟩
  | recvSink => exact .inl (recvSinkIterate_buf s)
  | fetch => exact .inl (sendFetchIterate_keepsBuffers s).buf
  | write _ _ _ ht => exact .inl (sendWriteIterate_keepsBuffers ht).buf

/-- Settles O45: only RECV_BUF writes `BUF`, and its guard keeps it below the capacity. -/
theorem bufWritesStayBelowCapacity : Obligations.BufWritesStayBelowCapacity := by
  intro s t a rest ha h
  rcases blockTurn_buf (step_block_next ha h).2 with hbuf | ⟨hp, rfl⟩
  · exact ⟨fun i _ => by rw [hbuf], fun _ => hbuf⟩
  · exact ⟨fun i hi => recvBufIterate_buf_above _ hi, fun hne => absurd hp hne⟩

end Sys2Proof.Machine
end

section
/-! PROOFS. The family of 20_memory.md, third part: the block does not read the descriptor input
while it runs (R42, R80). -/

namespace Sys2Proof.Machine

/-- `s` with `d` at its descriptor input. -/
def presented (d : Desc) (s : State) : State := { s with desc := d }

theorem zeroTransfer_presented {expired : State → State} (d : Desc) (poll : Nat) (s : State)
    (h : expired (presented d s) = presented d (expired s)) :
    zeroTransfer poll expired (presented d s) = presented d (zeroTransfer poll expired s) := by
  simp only [zeroTransfer, apply_ite (presented d), h]
  rfl

theorem endWait_presented (d : Desc) (s : State) :
    endWait (presented d s) = presented d (endWait s) :=
  (apply_ite (presented d) (s.wake ≤ s.now) { s with waiting := false } s).symm

theorem sendFrame_presented (cmd : Byte) (d : Desc) (s : State) :
    sendFrame cmd (presented d s) = presented d (sendFrame cmd s) := by
  simp only [sendFrame, apply_ite (presented d)]
  rfl

theorem receive_presented (b : Byte) (bs : List Byte) (d : Desc) (s : State) :
    receive b bs (presented d s) = presented d (receive b bs s) := by
  have hx : (presented d s).rxsm = s.rxsm := rfl
  unfold receive
  rw [hx]
  cases s.rxsm with
  | seekDle => simp only [seekDle, apply_ite (presented d)]; rfl
  | seekStx => simp only [seekStx, apply_ite (presented d)]; rfl
  | readLength => simp only [readLength, apply_ite (presented d)]; rfl
  | _ => rfl

theorem bufCommit_presented (bs : List Byte) (d : Desc) (s : State) :
    bufCommit bs (presented d s) = presented d (bufCommit bs s) := by
  simp only [bufCommit, apply_ite (presented d)]
  rfl

theorem sinkCommit_presented (bs : List Byte) (d : Desc) (s : State) :
    sinkCommit bs (presented d s) = presented d (sinkCommit bs s) := by
  simp only [sinkCommit_eq, apply_ite (presented d)]
  rfl

/-- A read asks the transport, which does not see the descriptor. -/
theorem transportRead_presented (k : Nat) (d : Desc) (s : State) :
    transportRead k (presented d s)
      = ((transportRead k s).1, presented d (transportRead k s).2) := rfl

theorem recvLenIterate_presented (d : Desc) (s : State) :
    recvLenIterate (presented d s) = presented d (recvLenIterate s) := by
  have hc : (presented d s).cancel = s.cancel := rfl
  have hask : rxAsk (presented d s) = rxAsk s := rfl
  simp only [recvLenIterate, hc, hask, transportRead_presented]
  split
  · rfl
  · split
    · exact zeroTransfer_presented _ _ _ rfl
    · exact receive_presented _ _ d (setDeadline (transportRead (rxAsk s) s).2)

theorem recvBufIterate_presented (d : Desc) (s : State) :
    recvBufIterate (presented d s) = presented d (recvBufIterate s) := by
  have hc : (presented d s).cancel = s.cancel := rfl
  have hask : bufAsk (presented d s) = bufAsk s := rfl
  have hcap : (presented d s).capacityR = s.capacityR := rfl
  have hoffset : (presented d s).offset = s.offset := rfl
  simp only [recvBufIterate, hc, hask, hcap, hoffset, transportRead_presented]
  split
  · rfl
  · split
    · exact zeroTransfer_presented _ _ _ rfl
    · split
      · rfl
      · exact bufCommit_presented _ d _

theorem recvSinkIterate_presented (d : Desc) (s : State) :
    recvSinkIterate (presented d s) = presented d (recvSinkIterate s) := by
  have hc : (presented d s).cancel = s.cancel := rfl
  have hask : sinkAsk (presented d s) = sinkAsk s := rfl
  simp only [recvSinkIterate, hc, hask, transportRead_presented]
  split
  · rfl
  · split
    · exact zeroTransfer_presented _ _ _ rfl
    · exact sinkCommit_presented _ d _

theorem sendFetchIterate_presented (d : Desc) (s : State) :
    sendFetchIterate (presented d s) = presented d (sendFetchIterate s) := by
  simp only [sendFetchIterate, apply_ite (presented d)]
  rfl

theorem sendAccepted_presented (m : Nat) (d : Desc) (s : State) :
    sendAccepted m (presented d s) = presented d (sendAccepted m s) := by
  simp only [sendAccepted_eq, apply_ite (presented d)]
  rfl

theorem sendWriteIterate_presented (d : Desc) (s : State) :
    sendWriteIterate (presented d s) = mapNext (presented d) (sendWriteIterate s) := by
  have hc : (presented d s).cancel = s.cancel := rfl
  have hread : (presented d s).txc.readBytes (presented d s).txcPos.toNat (writeAsk (presented d s))
      = s.txc.readBytes s.txcPos.toNat (writeAsk s) := rfl
  have hwrite (chunk : List Byte) : transportWrite chunk (presented d s)
      = ((transportWrite chunk s).1, presented d (transportWrite chunk s).2) := rfl
  simp only [sendWriteIterate, hc, hread, hwrite]
  split
  · rfl
  · split
    · rfl
    · split
      · exact congrArg Host.Outcome.next (sendAccepted_presented _ d _)
      · exact congrArg Host.Outcome.next (zeroTransfer_presented _ _ _ rfl)

theorem iteration_presented (d : Desc) (s : State) :
    iteration (presented d s) = mapNext (presented d) (iteration s) := by
  have hp : (presented d s).phase = s.phase := rfl
  unfold iteration
  rw [hp]
  cases s.phase with
  | idle => rfl
  | reqSend => exact congrArg Host.Outcome.next (sendFrame_presented s.cmdR d s)
  | rxRun => exact congrArg Host.Outcome.next (recvLenIterate_presented d s)
  | bufRun => exact congrArg Host.Outcome.next (recvBufIterate_presented d s)
  | sinkRun => exact congrArg Host.Outcome.next (recvSinkIterate_presented d s)
  | sendFetch => exact congrArg Host.Outcome.next (sendFetchIterate_presented d s)
  | sendWrite => exact sendWriteIterate_presented d s

/-- R80: a turn of the block carries another descriptor through unchanged. -/
theorem blockStep_presented (d : Desc) (s : State) :
    blockStep (presented d s) = mapNext (presented d) (blockStep s) := by
  by_cases hidle : s.busy = false ∨ s.phase = .idle
  · rw [blockStep_idle hidle, blockStep_idle (s := presented d s) hidle]
    rfl
  · obtain ⟨hb, hi⟩ : s.busy = true ∧ s.phase ≠ .idle := by simpa using hidle
    have hw : (presented d s).waiting = s.waiting := rfl
    rw [blockStep_running hb hi, blockStep_running (s := presented d s) hb hi, hw,
      endWait_presented, iteration_presented, apply_ite (mapNext (presented d))]
    rfl

/-- Settles O48: the turn of a block with another descriptor is the same turn. -/
theorem descriptorNotReadWhileRunning : Obligations.DescriptorNotReadWhileRunning := by
  intro s d a rest ha
  cases hv : s.cfg.valid with
  | false => rw [step_invalid hv, step_invalid (s := { s with desc := d }) hv]; rfl
  | true =>
    rw [step_block hv ha, step_block (s := { s with desc := d }) hv ha]
    exact blockStep_presented d { s with agenda := rest, answers := a }

end Sys2Proof.Machine
end

section
/-! PROOFS. The family of 20_memory.md, fourth part: a run of block turns, and that RECV_SINK
delivers its payload in order to a sink that takes whole chunks (R67, R188, R189). -/

namespace Sys2Proof.Machine

/-! ## Runs of block turns -/

theorem runs_succ {s t : State} (k : Nat) (h : step s = .next t) : runs (k + 1) s = runs k t := by
  have hcore : Sys2Proof.core.step s = .next t := h
  simp only [runs, Host.Core.run, hcore]
  rfl

/-- R6: the turn of a running operation that does not wait is its iteration. -/
theorem step_iteration {s : State} {a : Answers} {rest : List Move} (hv : s.cfg.valid = true)
    (ha : s.agenda = .block a :: rest) (hb : s.busy = true) (hi : s.phase ≠ .idle)
    (hw : s.waiting = false) : step s = iteration { s with agenda := rest, answers := a } := by
  rw [step_block hv ha, blockStep_running (s := { s with agenda := rest, answers := a }) hb hi,
    if_neg (by simp [hw])]

/-- R21: the turns left after an operation has ended change nothing of the block. -/
theorem runs_block_idle (as : List Answers) {s : State} (hv : s.cfg.valid = true)
    (hb : s.busy = false) (ha : s.agenda = as.map .block) :
    ∃ x, runs as.length s = .next { s with agenda := [], answers := x } := by
  induction as generalizing s with
  | nil =>
    have hnil : s.agenda = [] := ha
    exact ⟨s.answers, by rw [← hnil]; rfl⟩
  | cons a as ih =>
    have hstep : step s = .next { s with agenda := as.map .block, answers := a } :=
      (step_block hv ha).trans (blockStep_idle (.inl hb))
    obtain ⟨x, hx⟩ := ih (s := { s with agenda := as.map .block, answers := a }) hv hb rfl
    exact ⟨x, (runs_succ as.length hstep).trans hx⟩

/-! ## One read of RECV_SINK -/

/-- A RECV_SINK about to read, with the rest `payload` of its bytes next in the receive buffer and
`tail` after them. -/
structure SinkReady (payload tail : List Byte) (s : State) : Prop where
  phase : s.phase = .sinkRun
  waiting : s.waiting = false
  cancel : s.cancel = false
  left : payload.length = s.remaining.toNat
  rx : s.rx = payload ++ tail

/-- A RECV_SINK that ended with `OK` and read as far as `tail`. -/
structure SinkEnded (tail : List Byte) (t : State) : Prop where
  busy : t.busy = false
  status : t.status = .ok
  cause : t.cause = .none
  offset : t.offset = t.total
  rx : t.rx = tail

/-- R70: a read over a receive buffer that holds the payload returns its first bytes, at least one
where the transport answers at least one. -/
theorem SinkReady.read {payload tail : List Byte} {s : State} (hs : SinkReady payload tail s)
    (hv : s.cfg.valid = true) (hleft : s.remaining ≠ 0) (hread : 1 ≤ s.answers.read) :
    ∃ bs later, payload = bs ++ later ∧ bs ≠ [] ∧ (transportRead (sinkAsk s) s).1 = bs
      ∧ (transportRead (sinkAsk s) s).2.rx = later ++ tail := by
  obtain ⟨_, _, _, _, hchunk, _⟩ := (config_valid_iff s.cfg).1 hv
  have hpos : s.remaining.toNat ≠ 0 := fun hz => hleft (BitVec.eq_of_toNat_eq hz)
  have hlen := hs.left
  obtain ⟨k, hk⟩ : ∃ k, min (sinkAsk s) s.answers.read = k := ⟨_, rfl⟩
  have hbounds : 0 < k ∧ k ≤ payload.length := by
    unfold sinkAsk at hk
    omega
  refine ⟨payload.take k, payload.drop k, (List.take_append_drop k payload).symm, ?_, ?_, ?_⟩
  · rw [← List.length_pos_iff, List.length_take]
    omega
  · simp only [transportRead, hk, hs.rx, List.take_append_of_le_length hbounds.2]
  · simp only [transportRead, hk, hs.rx, List.drop_append_of_le_length hbounds.2]

/-- R73: a sink ready for all the bytes it is given takes them all. -/
theorem sinkAppend_whole {bs : List Byte} {s : State} (h : bs.length ≤ s.answers.sink) :
    (sinkAppend bs s).1 = bs.length := Nat.min_eq_left h

theorem sinkMoved_sink_whole {bs : List Byte} {s : State} (h : bs.length ≤ s.answers.sink) :
    (sinkMoved bs s).sink = s.sink ++ bs :=
  calc (sinkMoved bs s).sink = s.sink ++ bs.take (sinkAppend bs s).1 := (sinkAppend_spec bs s).2
    _ = s.sink ++ bs := by rw [sinkAppend_whole h, List.take_length]

/-- R189: the bytes `bs` of a read go to the sink; it ends when they were all that was left. -/
theorem sinkCommit_delivers {bs later tail : List Byte} {s : State}
    (hp : s.phase = .sinkRun) (hw : s.waiting = false) (hc : s.cancel = false)
    (hr : s.status = .none) (hsum : s.offset.toNat + s.remaining.toNat = s.total.toNat)
    (hleft : s.remaining.toNat = bs.length + later.length) (hrx : s.rx = later ++ tail)
    (hsink : bs.length ≤ s.answers.sink) :
    (sinkCommit bs s).sink = s.sink ++ bs
      ∧ (later = [] ∧ SinkEnded tail (sinkCommit bs s)
        ∨ SinkReady later tail (sinkCommit bs s)) := by
  have hmoved := sinkMoved_sink_whole hsink
  have hremaining : (sinkMoved bs s).remaining.toNat = later.length :=
    calc (sinkMoved bs s).remaining.toNat = s.remaining.toNat - bs.length := countDown_toNat _ _
      _ = later.length := by omega
  have hdone := (sinkCommit_counters hsum hr (bs := bs) (by omega)).done
  rcases sinkCommit_cases bs s with ⟨hshort, _⟩ | ⟨_, hzero, e⟩ | ⟨_, _, e⟩
  · exact absurd (sinkAppend_whole hsink) hshort.ne
  · rw [e] at hdone ⊢
    obtain rfl : later = [] := List.length_eq_zero_iff.1 (by rw [← hremaining, hzero]; rfl)
    exact ⟨hmoved, .inl ⟨rfl, rfl, rfl, rfl, hdone rfl, hrx⟩⟩
  · rw [e]
    exact ⟨hmoved, .inr ⟨hp, hw, hc, hremaining.symm, hrx⟩⟩

/-- R67, R189: an iteration moves the first bytes of the payload to the sink, and ends RECV_SINK
when they are all of it. -/
theorem recvSinkIterate_delivers {payload tail : List Byte} {s : State} (hinv : Inv s)
    (hv : s.cfg.valid = true) (hs : SinkReady payload tail s) (hread : 1 ≤ s.answers.read)
    (hsink : s.cfg.chunkRx ≤ s.answers.sink) :
    ∃ bs later, payload = bs ++ later ∧ bs ≠ [] ∧ (recvSinkIterate s).sink = s.sink ++ bs
      ∧ (later = [] ∧ SinkEnded tail (recvSinkIterate s)
        ∨ SinkReady later tail (recvSinkIterate s)) := by
  have hleft := hinv.bytesLeft (.inr (.inl hs.phase))
  have hr := (hinv.noResult (hinv.busyPhase.2 (by simp [hs.phase]))).1
  have hsum := hinv.counters (by simp [hs.phase, isBulk])
  obtain ⟨bs, later, rfl, hne, hbs, hrx⟩ := hs.read hv hleft hread
  have hchunk : bs.length ≤ s.answers.sink :=
    calc bs.length ≤ sinkAsk s := hbs ▸ (transportRead_spec (sinkAsk s) s).1
      _ ≤ s.cfg.chunkRx := Nat.min_le_right _ _
      _ ≤ s.answers.sink := hsink
  have hcommit : recvSinkIterate s = sinkCommit bs (transportRead (sinkAsk s) s).2 := by
    rcases recvSinkIterate_cases s with ⟨hc, _⟩ | ⟨_, h, _⟩ | ⟨_, h, _⟩ | ⟨_, _, e⟩
    · simp [hs.cancel] at hc
    · exact absurd (hbs ▸ h) hne
    · exact absurd (hbs ▸ h) hne
    · rw [e, hbs]
  have hlength : s.remaining.toNat = bs.length + later.length := by
    rw [← hs.left, List.length_append]
  exact ⟨bs, later, rfl, hne, hcommit ▸ sinkCommit_delivers (s := (transportRead (sinkAsk s) s).2)
    hs.phase hs.waiting hs.cancel hr hsum hlength hrx hchunk⟩

/-! ## The whole operation -/

/-- R188, R189: with turns that each read at least one byte, RECV_SINK ends within as many turns as
it has bytes left, and the turns after that change nothing. -/
theorem runs_recvSink_delivers {payload tail : List Byte} {as : List Answers} {s : State}
    (hinv : Inv s) (hv : s.cfg.valid = true) (hs : SinkReady payload tail s)
    (has : ∀ x ∈ as, 1 ≤ x.read ∧ s.cfg.chunkRx ≤ x.sink) (hlen : payload.length ≤ as.length)
    (ha : s.agenda = as.map .block) :
    ∃ t, runs as.length s = .next t ∧ SinkEnded tail t ∧ t.sink = s.sink ++ payload := by
  induction as generalizing s payload with
  | nil =>
    have hzero : s.remaining.toNat = 0 := hs.left ▸ Nat.le_zero.1 hlen
    exact absurd (BitVec.eq_of_toNat_eq hzero) (hinv.bytesLeft (.inr (.inl hs.phase)))
  | cons a as ih =>
    obtain ⟨hread, hsink⟩ := has a List.mem_cons_self
    have hi : s.phase ≠ .idle := by simp [hs.phase]
    obtain ⟨u, hu⟩ : ∃ u, u = recvSinkIterate { s with agenda := as.map .block, answers := a } :=
      ⟨_, rfl⟩
    have hstep : step s = .next u := by
      rw [step_iteration hv ha (hinv.busyPhase.2 hi) hi hs.waiting]
      simp [iteration, hs.phase, hu]
    have hframe : Frame { s with agenda := as.map .block, answers := a } u :=
      hu ▸ recvSinkIterate_frame _
    obtain ⟨bs, later, rfl, hne, hmoved, hnext⟩ := recvSinkIterate_delivers
      (s := { s with agenda := as.map .block, answers := a }) { hinv with } hv { hs with } hread
      hsink
    rw [← hu] at hmoved hnext
    have hcfg : u.cfg = s.cfg := hframe.cfg
    have hvu : u.cfg.valid = true := hcfg ▸ hv
    rw [List.length_cons, runs_succ as.length hstep]
    rcases hnext with ⟨rfl, hend⟩ | hready
    · obtain ⟨x, hx⟩ := runs_block_idle as hvu hend.busy hframe.agenda
      exact ⟨_, hx, { hend with }, by simpa using hmoved⟩
    · have hshorter : later.length ≤ as.length := by
        have := List.length_pos_iff.2 hne
        simp only [List.length_append, List.length_cons] at hlen
        omega
      obtain ⟨t, ht, hend, htsink⟩ := ih (stepKeepsInv s u hinv hstep).1 hvu hready
        (fun x hx => hcfg ▸ has x (List.mem_cons_of_mem a hx)) hshorter hframe.agenda
      exact ⟨t, ht, hend, by rw [htsink, hmoved, List.append_assoc]⟩

/-- Settles O57: the run of its turns, each of which reads. -/
theorem recvSinkDeliversThePayload : Obligations.RecvSinkDeliversThePayload := by
  intro s payload tail as hinv hv hp hw hc hleft hrx has hlen ha
  obtain ⟨t, ht, hend, hsink⟩ := runs_recvSink_delivers hinv hv ⟨hp, hw, hc, hleft, hrx⟩ has
    (hleft ▸ hlen) ha
  exact ⟨t, ht, hend.busy, hend.status, hend.cause, hend.offset, hend.rx, hsink⟩

end Sys2Proof.Machine
end

section
/-! PROOFS. The family of 30_encoding.md, first part: the fields of a descriptor under a mask (R101,
R103), and that the decoder and the encoder are each other's inverse (R90 to R103). -/

namespace Sys2Proof.Machine

open Sys2Proof.Laws
open Sys2Proof.Laws.EncodedFields (fields descOf_toNat)

/-! ## Descriptors by their fields (R101) -/

/-- R101: the five fields are all the bits of a descriptor. -/
theorem fields_injective : Function.Injective fields := by
  intro d e h
  simp only [fields, descOp, descCmd, descCapacity, descLength, Prod.mk.injEq,
    ← BitVec.toNat_inj, BitVec.extractLsb'_toNat, Nat.shiftRight_eq_div_pow] at h
  have hd := d.isLt
  have he := e.isLt
  apply BitVec.eq_of_toNat_eq
  omega

/-- A mask acts on each field by itself. -/
theorem fields_and (d mask : Desc) :
    fields (d &&& mask) = (descOp d &&& descOp mask, d.extractLsb' 3 5 &&& mask.extractLsb' 3 5,
      descCmd d &&& descCmd mask, descCapacity d &&& descCapacity mask,
      descLength d &&& descLength mask) := by
  simp only [fields, descOp, descCmd, descCapacity, descLength, BitVec.extractLsb'_and]

/-! ## The rows of the mask table, field by field (R103) -/

theorem matchesRow_iff {d mask value : Desc} :
    matchesRow d mask value = true ↔ d &&& mask = value := beq_iff_eq

/-- R103: every row of the table fixes `OP` and `RSV`, and what else it masks must be 0. -/
theorem and_eq_iff_fields {d mask value : Desc} {op : BitVec 3} {cmd : Byte}
    {capacity : BitVec 16} {length : U32}
    (hmask : fields mask = (BitVec.allOnes 3, BitVec.allOnes 5, cmd, capacity, length))
    (hvalue : fields value = (op, 0, 0, 0, 0)) :
    d &&& mask = value ↔ descOp d = op ∧ d.extractLsb' 3 5 = 0 ∧ descCmd d &&& cmd = 0
      ∧ descCapacity d &&& capacity = 0 ∧ descLength d &&& length = 0 := by
  simp only [fields, Prod.mk.injEq] at hmask
  obtain ⟨hop, hrsv, hcmd, hcapacity, hlength⟩ := hmask
  rw [← fields_injective.eq_iff, fields_and, hvalue, hop, hrsv, hcmd, hcapacity, hlength]
  simp only [Prod.mk.injEq, BitVec.and_allOnes]

theorem requestRow_iff {d : Desc} :
    d &&& 0xFFFFFFFFFFFF00FF = 0x0000000000000001 ↔ fields d = (1, 0, descCmd d, 0, 0) := by
  rw [and_eq_iff_fields (op := 1) (cmd := 0#8) (capacity := BitVec.allOnes 16)
    (length := BitVec.allOnes 32) (by decide) (by decide)]
  simp only [fields, Prod.mk.injEq, BitVec.and_allOnes, BitVec.and_zero,
    BitVec.ofNat_eq_ofNat, true_and]

theorem recvLenRow_iff {d : Desc} :
    d &&& 0xFFFFFFFFFFFFFFFF = 0x0000000000000002 ↔ fields d = (2, 0, 0, 0, 0) := by
  rw [and_eq_iff_fields (op := 2) (cmd := BitVec.allOnes 8) (capacity := BitVec.allOnes 16)
    (length := BitVec.allOnes 32) (by decide) (by decide)]
  simp only [fields, Prod.mk.injEq, BitVec.and_allOnes]

theorem recvBufRow_iff {d : Desc} :
    d &&& 0x000000000000FFFF = 0x0000000000000003
      ↔ fields d = (3, 0, 0, descCapacity d, descLength d) := by
  rw [and_eq_iff_fields (op := 3) (cmd := BitVec.allOnes 8) (capacity := 0#16)
    (length := 0#32) (by decide) (by decide)]
  simp only [fields, Prod.mk.injEq, BitVec.and_allOnes, BitVec.and_zero,
    BitVec.ofNat_eq_ofNat, and_true]

theorem recvSinkRow_iff {d : Desc} :
    d &&& 0x00000000FFFFFFFF = 0x0000000000000004 ↔ fields d = (4, 0, 0, 0, descLength d) := by
  rw [and_eq_iff_fields (op := 4) (cmd := BitVec.allOnes 8) (capacity := BitVec.allOnes 16)
    (length := 0#32) (by decide) (by decide)]
  simp only [fields, Prod.mk.injEq, BitVec.and_allOnes, BitVec.and_zero,
    BitVec.ofNat_eq_ofNat, and_true]

theorem sendRow_iff {d : Desc} :
    d &&& 0x00000000FFFFFFFF = 0x0000000000000005 ↔ fields d = (5, 0, 0, 0, descLength d) := by
  rw [and_eq_iff_fields (op := 5) (cmd := BitVec.allOnes 8) (capacity := BitVec.allOnes 16)
    (length := 0#32) (by decide) (by decide)]
  simp only [fields, Prod.mk.injEq, BitVec.and_allOnes, BitVec.and_zero,
    BitVec.ofNat_eq_ofNat, and_true]

/-! ## The descriptors that decode (R101 to R103) -/

/-- An operation encodes to the one descriptor that has its fields. -/
theorem encode_of_fields {i : Instr} {d : Desc}
    {operands : BitVec 3 × BitVec 5 × Byte × BitVec 16 × U32}
    (hi : ∃ e, encode i = .descriptor e ∧ fields e = operands) (hd : fields d = operands) :
    encode i = .descriptor d := by
  obtain ⟨e, hencode, he⟩ := hi
  rw [hencode, fields_injective (he.trans hd.symm)]

theorem decodeDesc_request {d : Desc} {cmd : Byte} (h : fields d = (1, 0, cmd, 0, 0)) :
    decodeDesc d = .ok (.request cmd) := by
  obtain ⟨hop, rfl⟩ : descOp d = 1 ∧ descCmd d = cmd := by simp_all [fields]
  have hrow := matchesRow_iff.2 (requestRow_iff.2 h)
  simpa [decodeDesc, hop] using hrow

theorem decodeDesc_recvLen {d : Desc} (h : fields d = (2, 0, 0, 0, 0)) :
    decodeDesc d = .ok .recvLen := by
  have hop : descOp d = 2 := congrArg Prod.fst h
  have hrow := matchesRow_iff.2 (recvLenRow_iff.2 h)
  simpa [decodeDesc, hop] using hrow

theorem decodeDesc_recvBuf {d : Desc} {capacity : BitVec 16} {length : U32}
    (h : fields d = (3, 0, 0, capacity, length)) :
    decodeDesc d = .ok (.recvBuf capacity length) := by
  obtain ⟨hop, rfl, rfl⟩ : descOp d = 3 ∧ descCapacity d = capacity ∧ descLength d = length := by
    simp_all [fields]
  have hrow := matchesRow_iff.2 (recvBufRow_iff.2 h)
  simpa [decodeDesc, hop] using hrow

theorem decodeDesc_recvSink {d : Desc} {length : U32} (h : fields d = (4, 0, 0, 0, length)) :
    decodeDesc d = .ok (.recvSink length) := by
  obtain ⟨hop, rfl⟩ : descOp d = 4 ∧ descLength d = length := by simp_all [fields]
  have hrow := matchesRow_iff.2 (recvSinkRow_iff.2 h)
  simpa [decodeDesc, hop] using hrow

theorem decodeDesc_send {d : Desc} {length : U32} (h : fields d = (5, 0, 0, 0, length)) :
    decodeDesc d = .ok (.send length) := by
  obtain ⟨hop, rfl⟩ : descOp d = 5 ∧ descLength d = length := by simp_all [fields]
  have hrow := matchesRow_iff.2 (sendRow_iff.2 h)
  simpa [decodeDesc, hop] using hrow

/-- R103: the row that a descriptor which decodes has matched, and the operands it holds. -/
theorem decodeDesc_cases {d : Desc} {i : Instr} (h : decodeDesc d = .ok i) :
    (d &&& 0xFFFFFFFFFFFF00FF = 0x0000000000000001 ∧ i = .request (descCmd d))
      ∨ (d &&& 0xFFFFFFFFFFFFFFFF = 0x0000000000000002 ∧ i = .recvLen)
      ∨ (d &&& 0x000000000000FFFF = 0x0000000000000003
        ∧ i = .recvBuf (descCapacity d) (descLength d))
      ∨ (d &&& 0x00000000FFFFFFFF = 0x0000000000000004 ∧ i = .recvSink (descLength d))
      ∨ (d &&& 0x00000000FFFFFFFF = 0x0000000000000005 ∧ i = .send (descLength d)) := by
  unfold decodeDesc at h
  split at h
  case h_6 => cases h
  all_goals
    split_ifs at h with hrow
    cases h
    simp only [matchesRow_iff.1 hrow, true_and, true_or, or_true]

/-- Settles O3: each row that matches fixes the descriptor's fields, and these decode. -/
theorem descriptorValidByMask : Obligations.DescriptorValidByMask := by
  intro d
  constructor
  · rintro ⟨i, hi⟩
    rcases decodeDesc_cases hi with ⟨h, _⟩ | ⟨h, _⟩ | ⟨h, _⟩ | ⟨h, _⟩ | ⟨h, _⟩
    · exact .inl h
    · exact .inr (.inl h)
    · exact .inr (.inr (.inl h))
    · exact .inr (.inr (.inr (.inl h)))
    · exact .inr (.inr (.inr (.inr h)))
  · rintro (h | h | h | h | h)
    · exact ⟨_, decodeDesc_request (requestRow_iff.1 h)⟩
    · exact ⟨_, decodeDesc_recvLen (recvLenRow_iff.1 h)⟩
    · exact ⟨_, decodeDesc_recvBuf (recvBufRow_iff.1 h)⟩
    · exact ⟨_, decodeDesc_recvSink (recvSinkRow_iff.1 h)⟩
    · exact ⟨_, decodeDesc_send (sendRow_iff.1 h)⟩

/-- R101, R103: a descriptor that decodes is the encoding of the operation. -/
theorem encode_of_decodeDesc {d : Desc} {i : Instr} (h : decodeDesc d = .ok i) :
    encode i = .descriptor d := by
  rcases decodeDesc_cases h with ⟨hrow, rfl⟩ | ⟨hrow, rfl⟩ | ⟨hrow, rfl⟩ | ⟨hrow, rfl⟩ | ⟨hrow, rfl⟩
  · exact encode_of_fields (EncodedFields.request _) (requestRow_iff.1 hrow)
  · exact encode_of_fields EncodedFields.recvLen (recvLenRow_iff.1 hrow)
  · exact encode_of_fields (EncodedFields.recvBuf _ _) (recvBufRow_iff.1 hrow)
  · exact encode_of_fields (EncodedFields.recvSink _) (recvSinkRow_iff.1 hrow)
  · exact encode_of_fields (EncodedFields.send _) (sendRow_iff.1 hrow)

/-! ## The bytes that decode (R90, R93, R133 to R135) -/

/-- R133: the request frame decoder answers on frames only. -/
theorem eq_frame_of_unframe {bytes : List Byte} {c : Byte} (h : unframe bytes = some c) :
    bytes = frame c := by
  unfold unframe at h
  split_ifs at h with hframe
  obtain ⟨_, hhead⟩ := hframe
  obtain ⟨hlt, rfl⟩ := List.getElem?_eq_some_iff.1 h
  rw [frame, ← hhead, List.take_append_getElem hlt, List.take_of_length_le (by omega)]

/-- R12: the encode undoes the decode too, as the four bytes push out all the accumulator held. -/
theorem be32enc_be32 (b0 b1 b2 b3 : Byte) : be32enc (be32 b0 b1 b2 b3) = [b0, b1, b2, b3] := by
  rw [← accumulate_four 0, be32enc_accumulate]
  rfl

/-- R134, R135: a header that the length decoder reads announces the length it reads. -/
theorem eq_header_of_hdrLen {bytes : List Byte} {n : U32} (hh : isHeader bytes = true)
    (hn : hdrLen bytes = some n) : bytes = header n := by
  unfold hdrLen at hn
  split at hn
  · next b0 b1 b2 b3 =>
    obtain rfl : be32 b0 b1 b2 b3 = n := Option.some.inj hn
    obtain ⟨rfl, rfl⟩ : _ = dle ∧ _ = stx := by simpa [isHeader] using hh
    rw [header, be32enc_be32]
  · cases hn

theorem encode_frameInstr (c : Byte) : encode (frameInstr c) = .wire (frame c) := by
  unfold frameInstr
  split_ifs <;> subst_vars <;> rfl

/-- R99: reserved is every command but the five of R96. -/
theorem isReservedCommand_iff {c : Byte} :
    isReservedCommand c = true ↔ c ≠ 0x01 ∧ c ≠ 0x02 ∧ c ≠ 0x03 ∧ c ≠ 0x04 ∧ c ≠ 0xF0 := by
  simp [isReservedCommand, definedCommands]

/-- R99: the row of a reserved command is its own. -/
theorem frameInstr_reserved {c : Byte} (h : isReservedCommand c = true) :
    frameInstr c = .frameReservedCmd c := by
  obtain ⟨h1, h2, h3, h4, h5⟩ := isReservedCommand_iff.1 h
  simp only [frameInstr, h1, h2, h3, h4, h5, if_false]

/-- R96, R99: the row of reserved commands gets none of the five that have rows of their own. -/
theorem frameInstr_wellFormed (c : Byte) : (frameInstr c).wellFormed = true := by
  unfold frameInstr
  split_ifs with h1 h2 h3 h4 h5
  case neg => exact isReservedCommand_iff.2 ⟨h1, h2, h3, h4, h5⟩
  all_goals rfl

/-- R90, R93: bytes that decode are a frame or a header, and the encoding of what they decode to. -/
theorem encode_of_decodeWire {bytes : List Byte} {i : Instr} (h : decodeWire bytes = .ok i) :
    encode i = .wire bytes ∧ i.wellFormed = true := by
  unfold decodeWire at h
  split_ifs at h with _ _ hh
  · split at h
    · next c hc =>
      cases h
      rw [eq_frame_of_unframe hc]
      exact ⟨encode_frameInstr c, frameInstr_wellFormed c⟩
    · cases h
  · split at h
    · next n hn =>
      cases h
      rw [eq_header_of_hdrLen hh hn]
      exact ⟨rfl, rfl⟩
    · cases h

/-! ## The decoder and the encoder -/

/-- An operation whose fields decode to it decodes from its encoding. -/
theorem decode_encode_of_fields {i : Instr}
    {operands : BitVec 3 × BitVec 5 × Byte × BitVec 16 × U32}
    (hi : ∃ d, encode i = .descriptor d ∧ fields d = operands)
    (hdecode : ∀ {d}, fields d = operands → decodeDesc d = .ok i) : decode (encode i) = .ok i := by
  obtain ⟨d, hd, hfields⟩ := hi
  rw [hd]
  exact hdecode hfields

/-- Settles O1, row by row: a descriptor has its operation's fields, a frame is its command's. -/
theorem decodeOfEncode : Obligations.DecodeOfEncode := by
  intro i hwf
  cases i with
  | request cmd => exact decode_encode_of_fields (EncodedFields.request cmd) decodeDesc_request
  | recvLen => exact decode_encode_of_fields EncodedFields.recvLen decodeDesc_recvLen
  | recvBuf capacity length =>
    exact decode_encode_of_fields (EncodedFields.recvBuf capacity length) decodeDesc_recvBuf
  | recvSink length =>
    exact decode_encode_of_fields (EncodedFields.recvSink length) decodeDesc_recvSink
  | send length => exact decode_encode_of_fields (EncodedFields.send length) decodeDesc_send
  | frameReadHeader => exact decode_frame 0x01
  | frameReadRom => exact decode_frame 0x02
  | frameReadRam => exact decode_frame 0x03
  | frameWriteRam => exact decode_frame 0x04
  | frameGetRamSize => exact decode_frame 0xF0
  | frameReservedCmd cmd =>
    exact (decode_frame cmd).trans (congrArg Except.ok (frameInstr_reserved hwf))
  | responseHeader length => exact decode_header length

/-- R103: only the frame of a reserved command has a condition. -/
theorem wellFormed_of_isOperation {i : Instr} (h : i.isOperation = true) :
    i.wellFormed = true := by
  cases i with
  | frameReservedCmd cmd => cases h
  | _ => rfl

/-- Settles O2: a descriptor by its fields, and bytes by the frame or header they are. -/
theorem decodeMeansEncoding : Obligations.DecodeMeansEncoding := by
  intro e i h
  cases e with
  | descriptor d =>
    have hop := decodeDesc_isOperation h
    exact ⟨encode_of_decodeDesc h, wellFormed_of_isOperation hop, fun _ _ => hop⟩
  | wire bytes =>
    obtain ⟨hencode, hwf⟩ := encode_of_decodeWire h
    exact ⟨hencode, hwf, nofun⟩

/-- Settles O4: the words that decode are encodings, and the others miss `OP` or a zero field. -/
theorem sampleWordsDecode : Obligations.SampleWordsDecode :=
  ⟨decodeOfEncode (.request 0x01) rfl, decodeOfEncode .recvLen rfl,
    decodeOfEncode (.recvBuf 32 9) rfl, decodeOfEncode (.recvSink 1100) rfl,
    decodeOfEncode (.send 64) rfl, decodeOfEncode .frameGetRamSize rfl,
    decodeOfEncode (.frameReservedCmd 0x7E) rfl, decodeOfEncode (.responseHeader 8192) rfl,
    rfl, rfl, rfl⟩

/-! ## The lines of a host program (R108) -/

theorem encode_lineInstr (r : U32) (op : LineOp) :
    encode (lineInstr r op) = .descriptor (lineDesc r op) := by
  cases op <;> rfl

/-- R108: a line is the encoding of its operation, so it decodes to it. -/
theorem decode_lineDesc (r : U32) (op : LineOp) :
    decode (.descriptor (lineDesc r op)) = .ok (lineInstr r op) := by
  have hwf : (lineInstr r op).wellFormed = true := by cases op <;> rfl
  rw [← encode_lineInstr]
  exact decodeOfEncode _ hwf

theorem lineDesc_request_toNat (r : U32) (cmd : Byte) :
    (lineDesc r (.request cmd)).toNat = 1 + cmd.toNat * 2 ^ 8 :=
  (descOf_toNat 1 cmd 0 0).trans (by bv_omega)

theorem lineDesc_recvBuf_toNat (r : U32) (length : LengthArg) (cap : BitVec 16) :
    (lineDesc r (.recvBuf length cap)).toNat
      = 3 + cap.toNat * 2 ^ 16 + (LengthArg.value r length).toNat * 2 ^ 32 :=
  (descOf_toNat 3 0 cap (LengthArg.value r length)).trans (by bv_omega)

theorem lineDesc_recvSink_toNat (r : U32) (length : LengthArg) :
    (lineDesc r (.recvSink length)).toNat = 4 + (LengthArg.value r length).toNat * 2 ^ 32 :=
  (descOf_toNat 4 0 0 (LengthArg.value r length)).trans (by bv_omega)

theorem lineDesc_send_toNat (r : U32) (length : LengthArg) :
    (lineDesc r (.send length)).toNat = 5 + (LengthArg.value r length).toNat * 2 ^ 32 :=
  (descOf_toNat 5 0 0 (LengthArg.value r length)).trans (by bv_omega)

/-- Settles O9, form by form: the fields at their places, and the operation that is encoded. -/
theorem lineEncodesItsOperation : Obligations.LineEncodesItsOperation := by
  intro r n cmd cap
  exact ⟨⟨lineDesc_request_toNat r cmd, decode_lineDesc r (.request cmd)⟩,
    ⟨rfl, decode_lineDesc r .recvLen⟩,
    ⟨lineDesc_recvBuf_toNat r (.lit n) cap, decode_lineDesc r (.recvBuf (.lit n) cap)⟩,
    ⟨lineDesc_recvBuf_toNat r .resultLen cap, decode_lineDesc r (.recvBuf .resultLen cap)⟩,
    ⟨lineDesc_recvSink_toNat r (.lit n), decode_lineDesc r (.recvSink (.lit n))⟩,
    ⟨lineDesc_recvSink_toNat r .resultLen, decode_lineDesc r (.recvSink .resultLen)⟩,
    ⟨lineDesc_send_toNat r (.lit n), decode_lineDesc r (.send (.lit n))⟩,
    ⟨lineDesc_send_toNat r .resultLen, decode_lineDesc r (.send .resultLen)⟩⟩

end Sys2Proof.Machine
end

section
/-! PROOFS. The family of 30_encoding.md, second part: the frame REQUEST sends and the header that
ends RECV_LEN (R92 to R99, R131, R157), the host's program (R108) and the host's read of a register
(R104 to R107). -/

namespace Sys2Proof.Machine

/-! ## The frame that REQUEST sends (R92, R131) -/

/-- R131: the discard, the accepted bytes of the frame, and the end of REQUEST. -/
theorem sendFrame_eq (c : Byte) (s : State) {m : Nat} (hm : m = min 7 s.answers.write) :
    sendFrame c s = { s with
      rx := [],
      tx := s.tx ++ [0x10, 0x02, 0x00, 0x00, 0x00, 0x01, c].take m,
      status := if m < 7 then .transportWrite else .ok,
      cause := if m < 7 then .shortAccept else .none,
      busy := false, phase := .idle, events := s.events ++ [.done] } := by
  subst hm
  have hwrite : (transportWrite (frame c) (transportDiscard s)).1 = min 7 s.answers.write := rfl
  simp only [sendFrame, hwrite]
  split_ifs <;> rfl

/-- Settles O18: the start block, and the iteration, which reads the latched command. -/
theorem requestSendsItsFrame : Obligations.RequestSendsItsFrame := by
  intro c s
  refine ⟨fun hb => ?start, fun hb hp hw m hm => ?iteration⟩
  case start =>
    rw [exec_request, operationStep_idle hb]
    rfl
  case iteration =>
    rw [exec_request, operationStep_iterate hb (by simp [hp]) hw, sendFrame_eq s.cmdR s hm]

/-- Settles O19: every row is the frame of its command, which the iteration of REQUEST sends. -/
theorem framesGoOnTheWire : Obligations.FramesGoOnTheWire := by
  intro i c s hrow hb hp hw hcmd m hm
  have hframe : i = frameInstr c := by
    rcases hrow with hdefined | ⟨rfl, hreserved⟩
    · simp only [List.mem_cons, Prod.mk.injEq, List.not_mem_nil, or_false] at hdefined
      rcases hdefined with ⟨rfl, rfl⟩ | ⟨rfl, rfl⟩ | ⟨rfl, rfl⟩ | ⟨rfl, rfl⟩ | ⟨rfl, rfl⟩ <;> rfl
    · exact (frameInstr_reserved hreserved).symm
  subst hcmd
  have hsend : frameStep s.cmdR s = .next (sendFrame s.cmdR s) := by
    rw [frameStep_own hb hp, hw]
    rfl
  rw [hframe, exec_frameInstr, hsend, sendFrame_eq s.cmdR s hm]

/-! ## The header that ends RECV_LEN (R93, R157) -/

/-- R70: a read that may return all the bytes it asks for takes them off the receive buffer. -/
theorem transportRead_append {s : State} {bs tail : List Byte} (hrx : s.rx = bs ++ tail)
    (hread : bs.length ≤ s.answers.read) :
    transportRead bs.length s = (bs, { s with rx := tail }) := by
  simp [transportRead, hrx, Nat.min_eq_left hread]

/-- Settles O27: the read returns the missing bytes, so the header it completes is that of `n`. -/
theorem responseHeaderGivesTheLength : Obligations.ResponseHeaderGivesTheLength := by
  intro s n bs tail hb hp hw hc hx hrx hne hread henc hlen
  have hask : rxAsk s = bs.length := by
    rw [rxAsk_readLength hx]
    omega
  have htaken : transportRead (rxAsk s) s = (bs, { s with rx := tail }) :=
    hask ▸ transportRead_append hrx hread
  have hn : n = accumulate s.lenAcc bs := be32enc_injective (by
    rw [← henc, ← lengthBytes_append hlen, lengthBytes,
      show 4 - s.lenCount.toNat = bs.length by omega])
  have hcompleted : completedHeader s = some (header n) := by
    rw [completedHeader_eq_some, htaken]
    exact ⟨⟨hb, hp, hw, hc, hx⟩, hne, hlen, by rw [hn]⟩
  have hexec : exec (.responseHeader n) s = .next (lengthDone n
      { setDeadline (transportRead (rxAsk s) s).2 with lenAcc := n, lenCount := 4 }) :=
    if_pos hcompleted
  rw [hexec, htaken]
  rfl

/-! ## The host's program (R108) -/

theorem step_nextLine {s : State} {rest : List Move} (hv : s.cfg.valid = true)
    (ha : s.agenda = .nextLine :: rest) : step s = programStep { s with agenda := rest } := by
  simp only [step, hv, ha, if_true, move]

theorem hostTurn_busy {s : State} {line : Line} {lines : List Line}
    (hprogram : s.program = line :: lines) (hb : s.busy = true) : hostTurn s = .waits := by
  simp [hostTurn, hprogram, hb]

theorem hostTurn_failed {s : State} {line : Line} {lines : List Line}
    (hprogram : s.program = line :: lines) (hb : s.busy = false) (hline : line.always = false)
    (hstatus : s.status ≠ .ok) : hostTurn s = .stops := by
  simp [hostTurn, hprogram, hb, hline, hstatus]

theorem hostTurn_goes_on {s : State} {line : Line} {lines : List Line}
    (hprogram : s.program = line :: lines) (hb : s.busy = false)
    (h : line.always = true ∨ s.status = .ok) : hostTurn s = .starts line lines := by
  simp [hostTurn, hprogram, hb, h]

theorem programStep_waits {s : State} (h : hostTurn s = .waits) : programStep s = .next s := by
  simp only [programStep, h]

theorem programStep_stops {s : State} (h : hostTurn s = .stops) :
    programStep s = .next { s with program := [] } := by
  simp only [programStep, h]

theorem programStep_starts {s : State} {line : Line} {lines : List Line}
    (h : hostTurn s = .starts line lines) :
    programStep s
      = startStep { s with desc := lineDesc s.resultLen line.op, program := lines } := by
  simp only [programStep, h]

/-- Settles O41, one clause per turn of the program; the line that starts is a start request of its
descriptor. -/
theorem hostProgramStopsAtFailure : Obligations.HostProgramStopsAtFailure := by
  intro s line lines rest hv ha hprogram
  have hturn := step_nextLine hv ha
  refine ⟨fun hb => ?waits, fun hb hline hstatus => ?stops, fun hb h => ?starts⟩
  case waits => exact hturn.trans (programStep_waits (hostTurn_busy hprogram hb))
  case stops => exact hturn.trans (programStep_stops (hostTurn_failed hprogram hb hline hstatus))
  case starts =>
    have hstart := programStep_starts (s := { s with agenda := rest })
      (hostTurn_goes_on hprogram hb h)
    refine (hturn.trans hstart).trans (Eq.symm (step_start ?_ rfl))
    exact hv

/-! ## The host's read of a register (R20, R46, R104 to R107) -/

theorem step_readReg {s : State} {r : Reg} {rest : List Move} (hv : s.cfg.valid = true)
    (ha : s.agenda = .readReg r :: rest) :
    step s = .next (hostReadReg r { s with agenda := rest }) := by
  simp only [step, hv, ha, if_true, move]

/-- Settles O40: the move records the register, and each encoded register reads as the number of the
name it holds. -/
theorem hostReadsTheEncodedRegisters : Obligations.HostReadsTheEncodedRegisters := by
  refine ⟨fun s r rest hv ha => ?read, fun s => ⟨?busy, rfl, ?state, ?rxsm, rfl, rfl, rfl, rfl,
    ?waiting, rfl, ?waitKind, rfl, rfl, rfl, rfl, rfl, rfl, rfl, rfl, ?status, ?cause⟩⟩
  case read => exact step_readReg hv ha
  case busy => change s.busy.toNat = _; cases s.busy <;> rfl
  case state => change (phaseCode s.phase).toNat = _; cases s.phase <;> rfl
  case rxsm => change (rxCode s.rxsm).toNat = _; cases s.rxsm <;> rfl
  case waiting => change s.waiting.toNat = _; cases s.waiting <;> rfl
  case waitKind => change (waitKindCode s.waitKind).toNat = _; cases s.waitKind <;> rfl
  case status => change (statusCode s.status).toNat = _; cases s.status <;> rfl
  case cause => change (causeCode s.cause).toNat = _; cases s.cause <;> rfl

end Sys2Proof.Machine
end

section
/-! PROOFS. The family of 40_framer.md, first part: frames and headers (R133 to R135), and the start
of SEND (R130, R221). -/

namespace Sys2Proof.Machine

/-! ## Frames and headers (R133 to R135) -/

/-- Settles O5: the decoder answers on frames only, and a frame decodes to its command by
computation. -/
theorem unframeInvertsFrame : Obligations.UnframeInvertsFrame := by
  intro s c
  refine ⟨⟨eq_frame_of_unframe, ?_⟩, rfl, rfl⟩
  rintro rfl
  rfl

/-- R134: of six bytes only the first two decide. -/
theorem isHeader_iff (b0 b1 b2 b3 b4 b5 : Byte) :
    isHeader [b0, b1, b2, b3, b4, b5] = true ↔ b0 = dle ∧ b1 = stx := by
  simp [isHeader]

/-- Settles O7: the marker decides, and the length decoder reads the other four bytes. -/
theorem headerIsMarkerAndLength : Obligations.HeaderIsMarkerAndLength :=
  fun b0 b1 b2 b3 b4 b5 => ⟨isHeader_iff b0 b1 b2 b3 b4 b5, rfl⟩

/-! ## The start of SEND (R130, R221) -/

/-- Settles O35: an idle block runs the start block, which ends at once where there is no byte. -/
theorem sendStarts : Obligations.SendStarts := by
  intro n s hb
  have hstart : exec (.send n) s = .next (sendStart n s) :=
    (exec_send n s).trans (operationStep_idle hb)
  rw [hstart]
  refine ⟨?zero, fun hn => ?nonzero⟩
  case zero =>
    rintro rfl
    rfl
  case nonzero => exact congrArg Host.Outcome.next (if_neg hn)

end Sys2Proof.Machine
end

section
/-! PROOFS. The family of 40_framer.md, second part: RECV_LEN finds the first response header after
clean noise (R136, R153 to R157, R162). -/

namespace Sys2Proof.Machine

/-! ## The bytes before RECV_LEN (R134, R136) -/

/-- R136: noise without DLE, the response header of `n`, and `tail`. -/
def HeaderAhead (n : U32) (tail bytes : List Byte) : Prop :=
  ∃ noise, dle ∉ noise ∧ bytes = noise ++ header n ++ tail

/-- R136: where the first byte is DLE there is no noise, and the header begins there. -/
theorem headerAhead_dle {n : U32} {tail bytes : List Byte}
    (h : HeaderAhead n tail (dle :: bytes)) : bytes = stx :: be32enc n ++ tail := by
  obtain ⟨noise, hnoise, heq⟩ := h
  cases noise with
  | nil => exact (List.cons.inj heq).2
  | cons c noise =>
    obtain ⟨rfl, _⟩ := List.cons.inj heq
    exact absurd List.mem_cons_self hnoise

/-- R136, R153: a first byte other than DLE is noise. -/
theorem headerAhead_of_noise {n : U32} {tail bytes : List Byte} {b : Byte}
    (h : HeaderAhead n tail (b :: bytes)) (hb : b ≠ dle) : HeaderAhead n tail bytes := by
  obtain ⟨noise, hnoise, heq⟩ := h
  cases noise with
  | nil => exact absurd (List.cons.inj heq).1 hb
  | cons c noise =>
    exact ⟨noise, fun hmem => hnoise (List.mem_cons_of_mem c hmem), (List.cons.inj heq).2⟩

theorem headerAhead_header (n : U32) (tail : List Byte) :
    HeaderAhead n tail (header n ++ tail) := ⟨[], List.not_mem_nil, rfl⟩

theorem HeaderAhead.length_le {n : U32} {tail bytes : List Byte} (h : HeaderAhead n tail bytes) :
    tail.length + 6 ≤ bytes.length := by
  obtain ⟨noise, _, rfl⟩ := h
  simp only [List.length_append, header, List.length_cons, be32enc_length]
  omega

/-! ## What RECV_LEN has recognised (R152 to R157) -/

/-- The bytes of the header a running RECV_LEN has recognised and accumulated so far. -/
def recognised (s : State) : List Byte :=
  match s.rxsm with
  | .seekStx => [dle]
  | .readLength => dle :: stx :: lengthBytes s
  | _ => []

theorem headerStream_eq_recognised (s : State) : headerStream s = recognised s ++ s.rx := by
  unfold headerStream recognised
  cases s.rxsm <;> rfl

theorem recognised_seekDle {s : State} (hx : s.rxsm = .seekDle) : recognised s = [] := by
  simp only [recognised, hx]

theorem recognised_seekStx {s : State} (hx : s.rxsm = .seekStx) : recognised s = [dle] := by
  simp only [recognised, hx]

theorem recognised_readLength {s : State} (hx : s.rxsm = .readLength) :
    recognised s = dle :: stx :: lengthBytes s := by
  simp only [recognised, hx]

/-- R26: `LEN_COUNT` bytes are accumulated. -/
theorem lengthBytes_length {s : State} (h : s.lenCount.toNat ≤ 4) :
    (lengthBytes s).length = s.lenCount.toNat := by
  rw [lengthBytes, List.length_drop, be32enc_length]
  omega

/-- R157: a read of missing length bytes is recognised after those accumulated before. -/
theorem recognised_accumulated {s : State} {bs : List Byte} (hx : s.rxsm = .readLength)
    (h : s.lenCount.toNat + bs.length ≤ 4) :
    recognised { s with
        lenAcc := accumulate s.lenAcc bs,
        lenCount := BitVec.ofNat 3 (s.lenCount.toNat + bs.length) }
      = dle :: stx :: (lengthBytes s ++ bs) := by
  simp only [recognised, hx, lengthBytes, lenCount_toNat h, be32enc_accumulate, List.drop_drop]
  rw [← List.drop_append_of_le_length (by rw [be32enc_length]; omega),
    show bs.length + (4 - (s.lenCount.toNat + bs.length)) = 4 - s.lenCount.toNat by omega]

/-! ## The search and its end (R136) -/

/-- A running RECV_LEN before the header of `n`, of whose bytes it has recognised some, `unread` the
bytes it has not read. -/
structure Searching (n : U32) (tail unread : List Byte) (s : State) : Prop where
  busy : s.busy = true
  phase : s.phase = .rxRun
  receiving : s.rxsm = .seekDle ∨ s.rxsm = .seekStx
    ∨ s.rxsm = .readLength ∧ s.lenCount.toNat < 4
  ahead : HeaderAhead n tail (recognised s ++ unread)

/-- A RECV_LEN that ended with the length `n` and consumed all before `tail`. -/
structure LengthFound (n : U32) (tail unread : List Byte) (t : State) : Prop where
  busy : t.busy = false
  status : t.status = .ok
  cause : t.cause = .none
  rxsm : t.rxsm = .done
  resultLen : t.resultLen = n
  unread : unread = tail

/-- R136: while the search goes on, a byte of the header is still to be read. -/
theorem Searching.length_lt {n : U32} {tail unread : List Byte} {s : State}
    (h : Searching n tail unread s) : tail.length < unread.length := by
  have hlen := h.ahead.length_le
  rcases h.receiving with hx | hx | ⟨hx, hcount⟩
  · simp only [recognised_seekDle hx, List.nil_append] at hlen
    omega
  · simp only [recognised_seekStx hx, List.cons_append, List.nil_append, List.length_cons] at hlen
    omega
  · simp only [recognised_readLength hx, List.cons_append, List.length_cons, List.length_append,
      lengthBytes_length hcount.le] at hlen
    omega

/-- R152: the search always asks for a byte. -/
theorem Searching.rxAsk_pos {n : U32} {tail unread : List Byte} {s : State}
    (h : Searching n tail unread s) : 0 < rxAsk s := by
  unfold rxAsk
  rcases h.receiving with hx | hx | ⟨hx, hcount⟩
  · simp [hx]
  · simp [hx]
  · simp only [hx, if_true]
    omega

/-! ## The bytes of one read (R153 to R157) -/

/-- R153: DLE is recognised, and every other byte is noise. -/
theorem seekDle_searching {n : U32} {tail unread : List Byte} {b : Byte} {s : State}
    (hs : Searching n tail (b :: unread) s) (hx : s.rxsm = .seekDle) :
    Searching n tail unread (seekDle b s) := by
  have hahead : HeaderAhead n tail (b :: unread) := by
    simpa [recognised_seekDle hx] using hs.ahead
  unfold seekDle
  split_ifs with hb
  · subst hb
    exact { hs with receiving := .inr (.inl rfl), ahead := hahead }
  · have hrest := headerAhead_of_noise hahead hb
    exact { hs with ahead := by rwa [recognised_seekDle hx] }

/-- R154: after DLE the next byte is the STX of the header. -/
theorem seekStx_searching {n : U32} {tail unread : List Byte} {b : Byte} {s : State}
    (hs : Searching n tail (b :: unread) s) (hx : s.rxsm = .seekStx) :
    Searching n tail unread (seekStx b s) := by
  have hmarker : b :: unread = stx :: be32enc n ++ tail :=
    headerAhead_dle (by simpa [recognised_seekStx hx] using hs.ahead)
  obtain ⟨rfl, rfl⟩ := List.cons.inj hmarker
  rw [seekStx, if_pos rfl]
  exact { hs with
    receiving := .inr (.inr ⟨rfl, Nat.zero_lt_succ 3⟩)
    ahead := headerAhead_header n tail }

/-- R157: the length bytes are accumulated, and the fourth ends RECV_LEN with their value. -/
theorem readLength_searching {n : U32} {tail unread bs : List Byte} {s : State}
    (hs : Searching n tail (bs ++ unread) s) (hx : s.rxsm = .readLength)
    (hlen : s.lenCount.toNat + bs.length ≤ 4) :
    Searching n tail unread (readLength bs s) ∨ LengthFound n tail unread (readLength bs s) := by
  have hbytes : lengthBytes s ++ (bs ++ unread) = be32enc n ++ tail := by
    have hahead := hs.ahead
    rw [recognised_readLength hx] at hahead
    exact (List.cons.inj (headerAhead_dle hahead)).2
  rw [← List.append_assoc] at hbytes
  rcases readLength_cases bs s with ⟨hfour, e⟩ | ⟨hfour, e⟩ <;> rw [e]
  · have hcount : s.lenCount.toNat + bs.length = 4 := by rw [← lenCount_toNat hlen, hfour]; rfl
    rw [lengthBytes_append hcount] at hbytes
    obtain ⟨henc, hunread⟩ := List.append_inj hbytes rfl
    exact .inr ⟨rfl, rfl, rfl, rfl, be32enc_injective henc, hunread⟩
  · have hcount : s.lenCount.toNat + bs.length < 4 :=
      Nat.lt_of_le_of_ne hlen fun h => hfour (by rw [h])
    refine .inl { hs with
      receiving := .inr (.inr ⟨hx, (lenCount_toNat hlen).trans_lt hcount⟩)
      ahead := ?_ }
    rw [recognised_accumulated hx hlen, List.cons_append, List.cons_append, hbytes]
    exact headerAhead_header n tail

/-- R153 to R157: the bytes of a read keep the search or end it with the header's length. -/
theorem receive_searching {n : U32} {tail unread bs : List Byte} {b : Byte} {s : State}
    (hs : Searching n tail (b :: bs ++ unread) s) (hlen : (b :: bs).length ≤ rxAsk s) :
    Searching n tail unread (receive b (b :: bs) s)
      ∨ LengthFound n tail unread (receive b (b :: bs) s) := by
  have hone (hx : s.rxsm ≠ .readLength) : bs = [] := by
    rw [rxAsk, if_neg hx, List.length_cons] at hlen
    exact List.length_eq_zero_iff.1 (by omega)
  rcases hs.receiving with hx | hx | ⟨hx, hcount⟩ <;> simp only [receive, hx]
  · obtain rfl := hone (by simp [hx])
    exact .inl (seekDle_searching hs hx)
  · obtain rfl := hone (by simp [hx])
    exact .inl (seekStx_searching hs hx)
  · rw [rxAsk_readLength hx] at hlen
    exact readLength_searching hs hx (by omega)

/-! ## One turn of the search -/

/-- R153 to R158: an iteration that reads bytes resets the deadline and receives them. -/
theorem recvLenIterate_of_read {s : State} {b : Byte} {bs : List Byte} (hc : s.cancel = false)
    (hr : (transportRead (rxAsk s) s).1 = b :: bs) :
    recvLenIterate s = receive b (b :: bs) (setDeadline (transportRead (rxAsk s) s).2) := by
  simp [recvLenIterate, hc, hr]

/-- R160: an iteration that reads no byte, and is not late, waits. -/
theorem recvLenIterate_of_no_read {s : State} (hc : s.cancel = false)
    (hr : (transportRead (rxAsk s) s).1 = []) (hd : s.now < s.deadline) :
    recvLenIterate s = startWait s.cfg.pPollRx .poll s := by
  simp [recvLenIterate, hc, hr, transportRead_nil hr, zeroTransfer, hd]

/-- R152: an iteration that reads a byte keeps the search or ends it with the header's length. -/
theorem recvLenIterate_searching {n : U32} {tail later : List Byte} {s : State}
    (hs : Searching n tail (s.rx ++ later) s) (hc : s.cancel = false)
    (hne : (transportRead (rxAsk s) s).1 ≠ []) :
    Searching n tail ((recvLenIterate s).rx ++ later) (recvLenIterate s)
      ∨ LengthFound n tail ((recvLenIterate s).rx ++ later) (recvLenIterate s) := by
  obtain ⟨b, bs, hr⟩ := List.exists_cons_of_ne_nil hne
  obtain ⟨hlen, hsplit, _⟩ := transportRead_spec (rxAsk s) s
  rw [hr] at hlen hsplit
  rw [← hsplit, List.append_assoc] at hs
  rw [recvLenIterate_of_read hc hr, (receive_keepsBuffers b (b :: bs) _).rx]
  exact receive_searching (s := setDeadline (transportRead (rxAsk s) s).2) { hs with } hlen

/-- R136: a turn of the block that is not late keeps the search or ends it with the header's
length; one that only waits, or reads no byte, keeps it as it is. -/
theorem blockTurn_searching {n : U32} {tail later : List Byte} {s t : State}
    (hs : Searching n tail (s.rx ++ later) s) (hc : s.cancel = false) (hd : s.now < s.deadline)
    (ht : BlockTurn s t) :
    Searching n tail (t.rx ++ later) t ∨ LengthFound n tail (t.rx ++ later) t := by
  have hp := hs.phase
  cases ht with
  | idle h => simp [hs.busy, hp] at h
  | wait =>
    rcases endWait_cases s with ⟨_, e⟩ | ⟨_, e⟩ <;> rw [e]
    · exact .inl { hs with }
    · exact .inl hs
  | recvLen =>
    by_cases hne : (transportRead (rxAsk s) s).1 = []
    · rw [recvLenIterate_of_no_read hc hne hd]
      exact .inl { hs with }
    · exact recvLenIterate_searching hs hc hne
  | request _ _ h => cases hp.symm.trans h
  | recvBuf _ _ h => cases hp.symm.trans h
  | recvSink _ _ h => cases hp.symm.trans h
  | fetch _ _ h => cases hp.symm.trans h
  | write _ _ h => cases hp.symm.trans h

/-- The noise, the header written out and the rest, as the obligations have them. -/
theorem append_header (noise tail : List Byte) (n : U32) :
    noise ++ [0x10, 0x02] ++ be32enc n ++ tail = noise ++ header n ++ tail := by
  rw [List.append_assoc noise]
  rfl

/-- Settles O54: the invariant says which receive states a running RECV_LEN can be in, and every
turn keeps the search or ends it. -/
theorem searchKeepsTheHeader : Obligations.SearchKeepsTheHeader := by
  intro s t a rest noise tail later n hinv hv ha hp hc hd hnoise hstream h
  have hreceiving : s.rxsm = .seekDle ∨ s.rxsm = .seekStx
      ∨ s.rxsm = .readLength ∧ s.lenCount.toNat < 4 :=
    (hinv.rxRunning hp).imp_right (Or.imp_right fun hx => ⟨hx, hinv.lenReading hp hx⟩)
  have hahead : HeaderAhead n tail (recognised s ++ (s.rx ++ later)) :=
    ⟨noise, hnoise, by
      rw [← append_header, ← hstream, headerStream_eq_recognised, List.append_assoc]⟩
  have hs : Searching n tail (s.rx ++ later) s :=
    ⟨hinv.busyPhase.2 (by simp [hp]), hp, hreceiving, hahead⟩
  rcases blockTurn_searching (s := { s with agenda := rest, answers := a }) { hs with } hc hd
    (step_block_next ha h).2 with hsearch | hfound
  · obtain ⟨noise', hnoise', heq⟩ := hsearch.ahead
    refine .inl ⟨hsearch.phase, noise', hnoise', ?_⟩
    rw [headerStream_eq_recognised, List.append_assoc, heq, append_header]
  · exact .inr ⟨hfound.busy, hfound.status, hfound.cause, hfound.rxsm, hfound.resultLen,
      hfound.unread⟩

/-! ## The whole operation (R136, R162) -/

/-- R70: over a receive buffer that is not empty, a transport that answers at least one byte returns
one. -/
theorem transportRead_ne_nil {k : Nat} {s : State} (hk : 0 < k) (hrx : 0 < s.rx.length)
    (hread : 1 ≤ s.answers.read) : (transportRead k s).1 ≠ [] := by
  rw [← List.length_pos_iff]
  simp only [transportRead, List.length_take]
  omega

theorem transportRead_rx_lt {k : Nat} {s : State} (hne : (transportRead k s).1 ≠ []) :
    (transportRead k s).2.rx.length < s.rx.length := by
  have hpos := List.length_pos_iff.2 hne
  have hsplit := congrArg List.length (transportRead_spec k s).2.1
  rw [List.length_append] at hsplit
  omega

theorem receive_waiting (b : Byte) (bs : List Byte) (s : State) :
    (receive b bs s).waiting = s.waiting := by
  rcases receive_cases b bs s with e | ⟨_, _, e⟩ | ⟨_, _, e⟩ | ⟨_, _, e⟩ | ⟨_, _, e⟩ | ⟨_, e⟩ <;>
    rw [e]
  case inr.inr.inr.inr.inr =>
    rcases readLength_cases bs s with ⟨_, e⟩ | ⟨_, e⟩ <;> simp [e, lengthDone]
  all_goals rfl

/-- R152: an iteration that reads a byte starts no wait and leaves fewer bytes to read. -/
theorem recvLenIterate_reads {s : State} (hc : s.cancel = false)
    (hne : (transportRead (rxAsk s) s).1 ≠ []) :
    (recvLenIterate s).waiting = s.waiting ∧ (recvLenIterate s).rx.length < s.rx.length := by
  obtain ⟨b, bs, hr⟩ := List.exists_cons_of_ne_nil hne
  rw [recvLenIterate_of_read hc hr, receive_waiting, (receive_keepsBuffers b (b :: bs) _).rx]
  exact ⟨rfl, transportRead_rx_lt hne⟩

/-- R162: an iteration over the whole header, with a transport that answers at least one byte, is
one read closer to the end of the search. -/
theorem recvLenIterate_advances {n : U32} {tail : List Byte} {s : State}
    (hs : Searching n tail s.rx s) (hc : s.cancel = false) (hread : 1 ≤ s.answers.read) :
    (Searching n tail (recvLenIterate s).rx (recvLenIterate s)
        ∨ LengthFound n tail (recvLenIterate s).rx (recvLenIterate s))
      ∧ (recvLenIterate s).waiting = s.waiting
      ∧ (recvLenIterate s).rx.length < s.rx.length := by
  have hne := transportRead_ne_nil hs.rxAsk_pos (Nat.zero_lt_of_lt hs.length_lt) hread
  have hsearch : Searching n tail (s.rx ++ []) s := (List.append_nil s.rx).symm ▸ hs
  exact ⟨by simpa using recvLenIterate_searching hsearch hc hne, recvLenIterate_reads hc hne⟩

/-- R162: with turns that each read at least one byte, the search ends within as many turns as there
are bytes before `tail`, and the turns after that change nothing. -/
theorem runs_recvLen_finds {n : U32} {tail : List Byte} {as : List Answers} {s : State}
    (hv : s.cfg.valid = true) (hs : Searching n tail s.rx s) (hw : s.waiting = false)
    (hc : s.cancel = false) (has : ∀ x ∈ as, 1 ≤ x.read)
    (hlen : s.rx.length ≤ tail.length + as.length) (ha : s.agenda = as.map .block) :
    ∃ t, runs as.length s = .next t ∧ LengthFound n tail t.rx t := by
  induction as generalizing s with
  | nil => exact absurd hs.length_lt (Nat.not_lt.2 hlen)
  | cons a as ih =>
    obtain ⟨u, hu⟩ : ∃ u, u = recvLenIterate { s with agenda := as.map .block, answers := a } :=
      ⟨_, rfl⟩
    have hstep : step s = .next u := by
      rw [step_iteration hv ha hs.busy (by simp [hs.phase]) hw]
      simp [iteration, hs.phase, hu]
    have hframe : Frame { s with agenda := as.map .block, answers := a } u :=
      hu ▸ recvLenIterate_frame _
    have hvu : u.cfg.valid = true := hframe.cfg ▸ hv
    obtain ⟨hnext, hwu, hrx⟩ := recvLenIterate_advances
      (s := { s with agenda := as.map .block, answers := a }) { hs with } hc
      (has a List.mem_cons_self)
    rw [← hu] at hnext hwu hrx
    rw [List.length_cons, runs_succ as.length hstep]
    rcases hnext with hsearch | hfound
    · have hshorter : u.rx.length ≤ tail.length + as.length := by
        rw [List.length_cons] at hlen
        have : u.rx.length < s.rx.length := hrx
        omega
      exact ih hvu hsearch (hwu.trans hw) (hframe.cancel.trans hc)
        (fun x hx => has x (List.mem_cons_of_mem a hx)) hshorter hframe.agenda
    · obtain ⟨x, hx⟩ := runs_block_idle as hvu hfound.busy hframe.agenda
      exact ⟨_, hx, { hfound with }⟩

/-- Settles O55: a RECV_LEN in `SEEK_DLE` has the noise, the header and the tail before it. -/
theorem recvLenFindsTheHeader : Obligations.RecvLenFindsTheHeader := by
  intro s noise tail n as hv hb hp hw hc hx hnoise hrx has hlen ha
  have hahead : HeaderAhead n tail (recognised s ++ s.rx) :=
    ⟨noise, hnoise, by rw [recognised_seekDle hx, hrx, append_header, List.nil_append]⟩
  have hturns : s.rx.length ≤ tail.length + as.length := by
    simp only [hrx, List.length_append, List.length_cons, List.length_nil, be32enc_length]
    omega
  obtain ⟨t, ht, hfound⟩ := runs_recvLen_finds hv ⟨hb, hp, .inl hx, hahead⟩ hw hc has hturns ha
  exact ⟨t, ht, hfound.busy, hfound.status, hfound.cause, hfound.rxsm, hfound.resultLen,
    hfound.unread⟩

end Sys2Proof.Machine
end

section
/-! PROOFS. The family of 41_receive_sm.md: the start of RECV_LEN (R151), and what each of its
iterations does (R152 to R156, R158 to R160). -/

namespace Sys2Proof.Machine

/-! ## The head of an iteration (R152) -/

theorem exec_recvLen_iterates {s : State} (hb : s.busy = true) (hp : s.phase = .rxRun)
    (hw : s.waiting = false) : exec .recvLen s = .next (recvLenIterate s) := by
  rw [exec_recvLen, operationStep_iterate hb (by simp [hp]) hw]

/-- R152: cancellation comes before the read, so no byte is consumed. -/
theorem recvLenIterate_cancelled {s : State} (hc : s.cancel = true) :
    recvLenIterate s = finish .cancelled .cancel { s with rxsm := .cancelled } :=
  if_pos hc

/-- R159: an iteration that reads no byte, and is late, ends RECV_LEN. -/
theorem recvLenIterate_of_late {s : State} (hc : s.cancel = false)
    (hr : (transportRead (rxAsk s) s).1 = []) (hd : s.deadline ≤ s.now) :
    recvLenIterate s = recvLenExpired s := by
  simp [recvLenIterate, hc, hr, transportRead_nil hr, zeroTransfer, hd]

/-- R152, R158: while the marker is sought an iteration takes one byte off the receive buffer and
resets the deadline before it looks at the byte. -/
theorem recvLenIterate_of_byte {s : State} {b : Byte} {rest : List Byte} (hc : s.cancel = false)
    (hx : s.rxsm ≠ .readLength) (hrx : s.rx = b :: rest) (hread : 1 ≤ s.answers.read) :
    recvLenIterate s = receive b [b] (setDeadline { s with rx := rest }) := by
  have htaken : transportRead (rxAsk s) s = ([b], { s with rx := rest }) := by
    rw [rxAsk, if_neg hx]
    exact transportRead_append (bs := [b]) hrx hread
  rw [recvLenIterate_of_read hc (congrArg Prod.fst htaken), htaken]

/-! ## A byte while the marker is sought (R153 to R156) -/

theorem receive_seekDle {b : Byte} {bs : List Byte} {s : State} (hx : s.rxsm = .seekDle) :
    receive b bs s = seekDle b s := by
  simp only [receive, hx]

theorem receive_seekStx {b : Byte} {bs : List Byte} {s : State} (hx : s.rxsm = .seekStx) :
    receive b bs s = seekStx b s := by
  simp only [receive, hx]

/-- R153: DLE is recognised, and every other byte leaves `SEEK_DLE` as it is. -/
theorem seekDle_eq {b : Byte} {s : State} (hx : s.rxsm = .seekDle) :
    seekDle b s = { s with rxsm := if b = dle then .seekStx else .seekDle } := by
  by_cases hb : b = dle
  · subst hb
    rfl
  · have hstays : seekDle b s = s := if_neg hb
    rw [hstays, if_neg hb, ← hx]

/-- R154: STX completes the marker and starts the accumulator. -/
theorem seekStx_stx (s : State) :
    seekStx stx s = { s with rxsm := .readLength, lenAcc := 0, lenCount := 0 } :=
  if_pos rfl

/-- R155: in the reference setting any other byte ends the operation, a second DLE too. -/
theorem seekStx_bad {b : Byte} {s : State} (hb : b ≠ stx) (hresync : s.cfg.resyncOnBadStx = false) :
    seekStx b s = finish .noFrameMarker .badStx { s with rxsm := .timeout } := by
  simp [seekStx, hb, hresync]

/-- R156: the search that resumes at a bad byte takes that byte as one of `SEEK_DLE`. -/
theorem seekStx_resync {b : Byte} {s : State} (hx : s.rxsm = .seekStx) (hb : b ≠ stx)
    (hresync : s.cfg.resyncOnBadStx = true) :
    seekStx b s = seekDle b { s with rxsm := .seekDle } := by
  rw [seekStx, if_neg hb, if_pos hresync]
  by_cases hdle : b = dle
  · rw [seekDle, if_pos hdle, if_pos hdle, ← hx]
  · rw [seekDle, if_neg hdle, if_neg hdle]

/-! ## The operation -/

/-- Settles O22: the iteration takes the byte as `SEEK_DLE` does. -/
theorem seekDleTakesOneByte : Obligations.SeekDleTakesOneByte := by
  intro s b rest hb hp hw hc hx hrx hread
  have hseek : (setDeadline { s with rx := rest }).rxsm = .seekDle := hx
  rw [exec_recvLen_iterates hb hp hw, recvLenIterate_of_byte hc (by simp [hx]) hrx hread,
    receive_seekDle hseek, seekDle_eq hseek]
  rfl

/-- Settles O23: the iteration takes the byte as `SEEK_STX` does, which is STX or not; if not,
`RESYNC_ON_BAD_STX` says whether the search resumes. -/
theorem seekStxDecides : Obligations.SeekStxDecides := by
  intro s b rest hb hp hw hc hx hrx hread
  have hseek : (setDeadline { s with rx := rest }).rxsm = .seekStx := hx
  rw [exec_recvLen_iterates hb hp hw, recvLenIterate_of_byte hc (by simp [hx]) hrx hread,
    receive_seekStx hseek]
  refine ⟨fun hstx => ?marker, fun hbad hresync => ?bad, fun hbad hresync => ?resync⟩
  case marker =>
    obtain rfl : b = stx := hstx
    rw [seekStx_stx]
    rfl
  case bad =>
    rw [seekStx_bad hbad (by simpa using hresync)]
    rfl
  case resync =>
    rw [seekStx_resync hseek hbad (by simpa using hresync), seekDle_eq rfl]
    rfl

/-- Settles O25: a read of no byte leaves only the deadline to be evaluated. -/
theorem recvLenZeroRead : Obligations.RecvLenZeroRead := by
  intro s hb hp hw hc hnone
  have hr : (transportRead (rxAsk s) s).1 = [] := hnone
  rw [exec_recvLen_iterates hb hp hw]
  refine ⟨fun hlate => ?expired, fun hearly => ?poll⟩
  case expired =>
    rw [recvLenIterate_of_late hc hr hlate]
    rfl
  case poll =>
    rw [recvLenIterate_of_no_read hc hr hearly]
    rfl

/-- Settles O21: an idle block runs the start block, which is the writes of every start (R130), the
deadline and the registers of the search. -/
theorem recvLenStarts : Obligations.RecvLenStarts := by
  intro s hb
  rw [exec_recvLen, operationStep_idle hb]
  rfl

/-- Settles O26: the iteration is the end with the result of a cancellation. -/
theorem recvLenCancelled : Obligations.RecvLenCancelled := by
  intro s hb hp hw hc
  rw [exec_recvLen_iterates hb hp hw, recvLenIterate_cancelled hc]
  rfl

end Sys2Proof.Machine
end

section
/-! PROOFS. The family of 42_bulk_receive.md, first part: the starts of RECV_BUF and RECV_SINK (R181,
R188), the bulk operations that see `CANCEL` (R182, R189, R222, R224), and what an iteration does with
the bytes of a read (R182, R183, R187, R189, R190). -/

namespace Sys2Proof.Machine

/-! ## The starts (R181, R188) -/

theorem exec_recvBuf_starts {s : State} (cap : BitVec 16) (n : U32) (hb : s.busy = false) :
    exec (.recvBuf cap n) s = .next (recvBufStart cap n s) := by
  rw [exec_recvBuf, operationStep_idle hb]

theorem exec_recvSink_starts {s : State} (n : U32) (hb : s.busy = false) :
    exec (.recvSink n) s = .next (recvSinkStart n s) := by
  rw [exec_recvSink, operationStep_idle hb]

/-- R103, R258: a capacity above the buffer makes the descriptor invalid. -/
theorem recvBufStart_illegal {cap : BitVec 16} {s : State} (n : U32)
    (hsize : s.cfg.bufSize < cap.toNat) : recvBufStart cap n s = illegalOp 3 s :=
  if_pos hsize

/-- R181: with a capacity the buffer has, the start block compares the length with it before it looks
whether the length is 0. -/
theorem recvBufStart_legal {cap : BitVec 16} {s : State} (n : U32)
    (hsize : cap.toNat ≤ s.cfg.bufSize) :
    recvBufStart cap n s =
      if cap.toNat < n.toNat then
        finish .capacity .none { bulkStart 3 n s with capacityR := cap }
      else if n = 0 then finish .ok .none { bulkStart 3 n s with capacityR := cap }
      else { bulkStart 3 n s with capacityR := cap, phase := .bufRun } :=
  if_neg (Nat.not_lt.2 hsize)

/-- Settles O29: each clause is one branch of the start block. -/
theorem recvBufStarts : Obligations.RecvBufStarts := by
  intro cap n s hb
  rw [exec_recvBuf_starts cap n hb]
  refine ⟨fun hsize => ?illegal, fun hsize hcap => ?capacity, fun hsize hn => ?empty,
    fun hsize hn hcap => ?running⟩
  case illegal =>
    rw [recvBufStart_illegal n hsize]
    rfl
  case capacity =>
    rw [recvBufStart_legal n hsize, if_pos hcap]
    rfl
  case empty =>
    obtain rfl : n = 0 := hn
    have hnone : ¬ cap.toNat < (0 : U32).toNat := Nat.not_lt_zero _
    rw [recvBufStart_legal 0 hsize, if_neg hnone, if_pos rfl]
    rfl
  case running =>
    rw [recvBufStart_legal n hsize, if_neg (Nat.not_lt.2 hcap), if_neg hn]
    rfl

/-- Settles O31: the start block ends at once where there is no byte to receive. -/
theorem recvSinkStarts : Obligations.RecvSinkStarts := by
  intro n s hb
  rw [exec_recvSink_starts n hb]
  refine ⟨?empty, fun hn => ?running⟩
  case empty =>
    rintro rfl
    rfl
  case running => exact congrArg Host.Outcome.next (if_neg hn)

/-! ## The iteration of a running bulk operation (R6) -/

theorem exec_recvBuf_iterates {s : State} (cap : BitVec 16) (n : U32) (hb : s.busy = true)
    (hp : s.phase = .bufRun) (hw : s.waiting = false) :
    exec (.recvBuf cap n) s = .next (recvBufIterate s) := by
  rw [exec_recvBuf, operationStep_iterate hb (by simp [hp]) hw]

theorem exec_recvSink_iterates {s : State} (n : U32) (hb : s.busy = true)
    (hp : s.phase = .sinkRun) (hw : s.waiting = false) :
    exec (.recvSink n) s = .next (recvSinkIterate s) := by
  rw [exec_recvSink, operationStep_iterate hb (by simp [hp]) hw]

theorem exec_send_fetches {s : State} (n : U32) (hb : s.busy = true)
    (hp : s.phase = .sendFetch) (hw : s.waiting = false) :
    exec (.send n) s = .next (sendFetchIterate s) := by
  rw [exec_send, operationStep_iterate hb (by simp [hp]) hw, if_pos hp]

theorem exec_send_writes {s : State} (n : U32) (hb : s.busy = true)
    (hp : s.phase = .sendWrite) (hw : s.waiting = false) :
    exec (.send n) s = sendWriteIterate s := by
  rw [exec_send, operationStep_iterate hb (by simp [hp]) hw, if_neg (by simp [hp])]

/-! ## Cancellation (R182, R189, R222, R224, R250) -/

theorem recvBufIterate_cancelled {s : State} (hc : s.cancel = true) :
    recvBufIterate s = bulkCancelled s :=
  if_pos hc

theorem recvSinkIterate_cancelled {s : State} (hc : s.cancel = true) :
    recvSinkIterate s = bulkCancelled s :=
  if_pos hc

/-- R222: a fetch looks at completion before it looks at `CANCEL`. -/
theorem sendFetchIterate_cancelled {s : State} (hleft : s.remaining ≠ 0) (hc : s.cancel = true) :
    sendFetchIterate s = bulkCancelled s :=
  (if_neg hleft).trans (if_pos hc)

theorem sendWriteIterate_cancelled {s : State} (hc : s.cancel = true) :
    sendWriteIterate s = .next (bulkCancelled s) :=
  if_pos hc

/-- Settles O34: the iteration of every bulk phase is the end with the result of a cancellation. -/
theorem bulkCancelled_ends : Obligations.BulkCancelled := by
  intro i s hb hw hc hrun
  change exec i s = .next (bulkCancelled s)
  rcases hrun with ⟨hp, cap, n, rfl⟩ | ⟨hp, n, rfl⟩ | ⟨hp, hleft, n, rfl⟩ | ⟨hp, n, rfl⟩
  · rw [exec_recvBuf_iterates cap n hb hp hw, recvBufIterate_cancelled hc]
  · rw [exec_recvSink_iterates n hb hp hw, recvSinkIterate_cancelled hc]
  · rw [exec_send_fetches n hb hp hw, sendFetchIterate_cancelled hleft hc]
  · rw [exec_send_writes n hb hp hw, sendWriteIterate_cancelled hc]

/-! ## The bytes of a read -/

/-- The state once a read has consumed `n` bytes of the receive buffer (R70). -/
def consumed (n : Nat) (s : State) : State := { s with rx := s.rx.drop n }

/-- R70: a read returns bytes from the front of the receive buffer and consumes as many as it
returns. -/
theorem transportRead_eq {k : Nat} {s : State} {bs : List Byte}
    (hbs : bs = s.rx.take (min k s.answers.read)) :
    transportRead k s = (bs, consumed bs.length s) := by
  have hrest := (transportRead_spec k s).2.2
  subst hbs
  exact Prod.ext rfl (congrArg (fun rx => { s with rx := rx }) hrest)

theorem length_le_of_read {k m : Nat} {rx bs : List Byte} (hbs : bs = rx.take (min k m)) :
    bs.length ≤ k := by
  rw [hbs, List.length_take]
  omega

/-- A counter moved down by all it holds is 0. -/
theorem sub_ofNat_eq_zero {c : U32} {n : Nat} (h : n = c.toNat) : c - BitVec.ofNat 32 n = 0 := by
  rw [h, BitVec.ofNat_toNat, BitVec.setWidth_eq, BitVec.sub_self]
  rfl

/-! ## RECV_BUF commits a read (R182, R183, R187) -/

section
variable {s : State} {bs : List Byte}

/-- R182, R183: the bytes of a read pass the capacity guard, or end the operation. -/
theorem recvBufIterate_of_read (hc : s.cancel = false)
    (hbs : bs = s.rx.take (min s.remaining.toNat s.answers.read)) (hne : bs ≠ []) :
    recvBufIterate s = if s.capacityR.toNat < s.offset.toNat + bs.length
      then finish .capacity .none (consumed bs.length s)
      else bufCommit bs (consumed bs.length s) := by
  have hread : transportRead (bufAsk s) s = (bs, consumed bs.length s) :=
    transportRead_eq hbs
  have hbytes : (transportRead (bufAsk s) s).1 = bs := congrArg Prod.fst hread
  rcases recvBufIterate_cases s with
    ⟨h, _⟩ | ⟨_, h, _⟩ | ⟨_, h, _⟩ | ⟨_, _, hcap, e⟩ | ⟨_, _, hcap, e⟩
  · simp [hc] at h
  · exact absurd (hbytes.symm.trans h) hne
  · exact absurd (hbytes.symm.trans h) hne
  · rw [hread] at hcap e
    rw [e, if_pos hcap]
  · rw [hread] at hcap e
    rw [e, if_neg (Nat.not_lt.2 hcap)]

/-- R182, R187: what committing `bs` writes, in the words of the rule. -/
theorem bufMoved_eq (hn : bs.length ≤ s.remaining.toNat) :
    bufMoved bs s = { s with
      buf := s.buf.writeBytes s.offset.toNat bs,
      offset := s.offset + BitVec.ofNat 32 bs.length,
      remaining := s.remaining - BitVec.ofNat 32 bs.length,
      deadline := s.now + s.cfg.tTimeout, progressCount := s.progressCount + 1,
      events := s.events
        ++ [.progress s.total (s.remaining - BitVec.ofNat 32 bs.length)] } := by
  rw [← countUp_eq_add, ← countDown_eq_sub hn]
  rfl

/-- R182: RECV_BUF runs on while bytes are left. -/
theorem bufCommit_of_lt (hn : bs.length < s.remaining.toNat) :
    bufCommit bs s = bufMoved bs s := by
  rcases bufCommit_cases bs s with ⟨hzero, _⟩ | ⟨_, e⟩
  · exact absurd hn (Nat.not_lt.2 (countDown_eq_zero.1 hzero))
  · exact e

/-- R182: RECV_BUF ends with `OK` once no byte is left. -/
theorem bufCommit_of_eq (hn : bs.length = s.remaining.toNat) :
    bufCommit bs s = finish .ok .none (bufMoved bs s) := by
  rcases bufCommit_cases bs s with ⟨_, e⟩ | ⟨hleft, _⟩
  · exact e
  · exact absurd (countDown_eq_zero.2 hn.ge) hleft

end

/-- Settles O30: the capacity guard decides, and then whether bytes are left. -/
theorem recvBufCommitsARead : Obligations.RecvBufCommitsARead := by
  intro cap n s bs hb hp hw hc hbs hne
  rw [exec_recvBuf_iterates cap n hb hp hw, recvBufIterate_of_read hc hbs hne]
  refine ⟨fun hover => ?refused, fun hfits => ⟨s.buf.writeBytes s.offset.toNat bs,
    Memory.read_writeBytes bs s.buf s.offset.toNat, fun hmore => ?more, fun hlast => ?last⟩⟩
  case refused =>
    rw [if_pos hover]
    rfl
  case more =>
    rw [if_neg (Nat.not_lt.2 hfits), bufCommit_of_lt (s := consumed bs.length s) hmore,
      bufMoved_eq (s := consumed bs.length s) hmore.le]
    rfl
  case last =>
    rw [if_neg (Nat.not_lt.2 hfits), bufCommit_of_eq (s := consumed bs.length s) hlast,
      bufMoved_eq (s := consumed bs.length s) hlast.le, ← sub_ofNat_eq_zero hlast]
    rfl

/-! ## RECV_SINK appends a read (R187, R189, R190) -/

section
variable {s : State} {bs : List Byte}

/-- R189: the bytes of a read go to the sink in the same step. -/
theorem recvSinkIterate_of_read (hc : s.cancel = false)
    (hbs : bs = s.rx.take (min (min s.remaining.toNat s.cfg.chunkRx) s.answers.read))
    (hne : bs ≠ []) :
    recvSinkIterate s = sinkCommit bs (consumed bs.length s) := by
  have hread : transportRead (sinkAsk s) s = (bs, consumed bs.length s) :=
    transportRead_eq hbs
  have hbytes : (transportRead (sinkAsk s) s).1 = bs := congrArg Prod.fst hread
  rcases recvSinkIterate_cases s with ⟨h, _⟩ | ⟨_, h, _⟩ | ⟨_, h, _⟩ | ⟨_, _, e⟩
  · simp [hc] at h
  · exact absurd (hbytes.symm.trans h) hne
  · exact absurd (hbytes.symm.trans h) hne
  · rw [e, hread]

/-- R189, R190: what reading `bs` writes where the sink takes `m` of its bytes, in the words of the
rule. -/
theorem sinkMoved_eq {m : Nat} (hn : bs.length ≤ s.remaining.toNat)
    (hm : m = min bs.length s.answers.sink) :
    sinkMoved bs s = { s with
      rxc := Memory.ofBytes bs, sink := s.sink ++ bs.take m,
      offset := s.offset + BitVec.ofNat 32 m,
      remaining := s.remaining - BitVec.ofNat 32 bs.length,
      deadline := s.now + s.cfg.tTimeout } := by
  rw [← countUp_eq_add, ← countDown_eq_sub hn, hm]
  rfl

/-- R190: a short append ends RECV_SINK. -/
theorem sinkCommit_of_short (hshort : min bs.length s.answers.sink < bs.length) :
    sinkCommit bs s = finish .sinkWrite .shortAccept (sinkMoved bs s) :=
  if_pos hshort

/-- R187, R189: RECV_SINK reports a whole append and runs on while bytes are left. -/
theorem sinkCommit_of_lt (hall : min bs.length s.answers.sink = bs.length)
    (hn : bs.length < s.remaining.toNat) :
    sinkCommit bs s = emitProgress (sinkMoved bs s) := by
  rcases sinkCommit_cases bs s with ⟨hshort, _⟩ | ⟨_, hzero, _⟩ | ⟨_, _, e⟩
  · exact absurd hall hshort.ne
  · exact absurd hn (Nat.not_lt.2 (countDown_eq_zero.1 hzero))
  · exact e

/-- R187, R189: RECV_SINK reports a whole append and ends with `OK` once no byte is left. -/
theorem sinkCommit_of_eq (hall : min bs.length s.answers.sink = bs.length)
    (hn : bs.length = s.remaining.toNat) :
    sinkCommit bs s = finish .ok .none (emitProgress (sinkMoved bs s)) := by
  rcases sinkCommit_cases bs s with ⟨hshort, _⟩ | ⟨_, _, e⟩ | ⟨_, hleft, _⟩
  · exact absurd hall hshort.ne
  · exact e
  · exact absurd (countDown_eq_zero.2 hn.ge) hleft

end

/-- Settles O32: whether the sink takes all the bytes decides, and then whether bytes are left. -/
theorem recvSinkAppendsARead : Obligations.RecvSinkAppendsARead := by
  intro n s bs m hb hp hw hc hbs hne hm
  have hn : bs.length ≤ s.remaining.toNat :=
    (length_le_of_read hbs).trans (Nat.min_le_left _ _)
  rw [exec_recvSink_iterates n hb hp hw, recvSinkIterate_of_read hc hbs hne]
  have hmoved := sinkMoved_eq (s := consumed bs.length s) hn hm
  refine ⟨Memory.ofBytes bs, fun a _ => Memory.read_ofBytes bs a, fun hshort => ?short,
    fun hall hmore => ?more, fun hall hlast => ?last⟩
  case short =>
    rw [sinkCommit_of_short (s := consumed bs.length s) (hm ▸ hshort), hmoved]
    rfl
  case more =>
    rw [sinkCommit_of_lt (s := consumed bs.length s) (hm ▸ hall) hmore, hmoved, hall,
      List.take_length]
    rfl
  case last =>
    rw [sinkCommit_of_eq (s := consumed bs.length s) (hm ▸ hall) hlast, hmoved, hall,
      List.take_length, ← sub_ofNat_eq_zero hlast]
    rfl

end Sys2Proof.Machine
end

section
/-! PROOFS. The family of 42_bulk_receive.md, second part: RECV_BUF delivers its payload into `BUF`,
however small the reads are (R182, R184, R193). -/

namespace Sys2Proof.Machine

/-! ## What is still to be written -/

/-- R11: writing bytes one part after the other is writing them all at once. -/
theorem Memory.writeBytes_append (bs later : List Byte) (m : Memory) (a : Nat) :
    m.writeBytes a (bs ++ later) = (m.writeBytes a bs).writeBytes (a + bs.length) later := by
  induction bs generalizing m a with
  | nil => rfl
  | cons b bs ih =>
    rw [List.cons_append, Memory.writeBytes, ih, Memory.writeBytes, List.length_cons,
      Nat.add_assoc, Nat.add_comm 1]

/-- A RECV_BUF about to read, with the rest `payload` of its bytes next in the receive buffer and
`tail` after them; written from `OFFSET`, they make of `BUF` the memory `target`. -/
structure BufReady (target : Memory) (payload tail : List Byte) (s : State) : Prop where
  phase : s.phase = .bufRun
  waiting : s.waiting = false
  cancel : s.cancel = false
  left : payload.length = s.remaining.toNat
  rx : s.rx = payload ++ tail
  buf : s.buf.writeBytes s.offset.toNat payload = target

/-- A RECV_BUF that ended with `OK`, read as far as `tail`, and left `target` in `BUF`. -/
structure BufEnded (target : Memory) (tail : List Byte) (t : State) : Prop where
  busy : t.busy = false
  status : t.status = .ok
  cause : t.cause = .none
  offset : t.offset = t.total
  rx : t.rx = tail
  buf : t.buf = target

/-! ## One read of RECV_BUF -/

/-- R70: a transport that answers at least one byte returns the first bytes of the payload, at least
one. -/
theorem BufReady.read {target : Memory} {payload tail : List Byte} {s : State}
    (hs : BufReady target payload tail s) (hleft : s.remaining ≠ 0) (hread : 1 ≤ s.answers.read) :
    ∃ bs later, payload = bs ++ later ∧ bs ≠ []
      ∧ bs = s.rx.take (min s.remaining.toNat s.answers.read) := by
  have hpos : s.remaining.toNat ≠ 0 := fun hz => hleft (BitVec.eq_of_toNat_eq hz)
  have hlen := hs.left
  obtain ⟨k, hk⟩ : ∃ k, min s.remaining.toNat s.answers.read = k := ⟨_, rfl⟩
  refine ⟨payload.take k, payload.drop k, (List.take_append_drop k payload).symm, ?_, ?_⟩
  · rw [← List.length_pos_iff, List.length_take]
    omega
  · rw [hk, hs.rx, List.take_append_of_le_length (by omega)]

/-- R182: committing the bytes `bs` of a read leaves the rest of the payload to be written where `bs`
ended, and ends the operation when there is no rest. -/
theorem bufCommit_delivers {target : Memory} {bs later tail : List Byte} {s : State}
    (hs : BufReady target (bs ++ later) tail s) (hr : s.status = .none)
    (hsum : s.offset.toNat + s.remaining.toNat = s.total.toNat) :
    BufEnded target tail (bufCommit bs (consumed bs.length s))
      ∨ BufReady target later tail (bufCommit bs (consumed bs.length s)) := by
  have hlen : bs.length + later.length = s.remaining.toNat := by
    rw [← hs.left, List.length_append]
  have hn : bs.length ≤ s.remaining.toNat := by omega
  have hrx : s.rx.drop bs.length = later ++ tail := by
    rw [hs.rx, List.append_assoc, List.drop_left]
  have hbuf : (s.buf.writeBytes s.offset.toNat bs).writeBytes (s.offset.toNat + bs.length) later
      = target := by
    rw [← Memory.writeBytes_append, hs.buf]
  have hdone := (bufCommit_counters (s := consumed bs.length s) hsum hr hn).done
  rcases Nat.eq_or_lt_of_le hn with hlast | hmore
  · obtain rfl : later = [] := List.length_eq_zero_iff.1 (by omega)
    rw [bufCommit_of_eq (s := consumed bs.length s) hlast] at hdone ⊢
    exact .inl ⟨rfl, rfl, rfl, hdone rfl, hrx, hbuf⟩
  · rw [bufCommit_of_lt (s := consumed bs.length s) hmore]
    refine .inr ⟨hs.phase, hs.waiting, hs.cancel, ?left, hrx, ?buf⟩
    case left =>
      have hmoved : (bufMoved bs (consumed bs.length s)).remaining.toNat
          = s.remaining.toNat - bs.length := countDown_toNat _ _
      omega
    case buf =>
      have hmoved : (bufMoved bs (consumed bs.length s)).offset.toNat
          = s.offset.toNat + bs.length := countUp_toNat_of_left hsum hn
      rw [hmoved]
      exact hbuf

/-- R182, R183: an iteration commits the first bytes of the payload, which the capacity always has
room for, and ends RECV_BUF when they are all of it. -/
theorem recvBufIterate_delivers {target : Memory} {payload tail : List Byte} {s : State}
    (hinv : Inv s) (hs : BufReady target payload tail s) (hread : 1 ≤ s.answers.read) :
    BufEnded target tail (recvBufIterate s)
      ∨ ∃ later, later.length < payload.length
        ∧ BufReady target later tail (recvBufIterate s) := by
  have hr := (hinv.noResult (hinv.busyPhase.2 (by simp [hs.phase]))).1
  have hsum := hinv.counters (by simp [hs.phase, isBulk])
  have hcap := (hinv.bufFits hs.phase).1
  obtain ⟨bs, later, rfl, hne, hbs⟩ := hs.read (hinv.bytesLeft (.inl hs.phase)) hread
  have hn := length_le_of_read hbs
  have hpos := List.length_pos_iff.2 hne
  rw [recvBufIterate_of_read hs.cancel hbs hne, if_neg (by omega)]
  rcases bufCommit_delivers hs hr hsum with hend | hready
  · exact .inl hend
  · exact .inr ⟨later, by rw [List.length_append]; omega, hready⟩

/-! ## The whole operation -/

/-- R182, R184: with turns that each read at least one byte, RECV_BUF ends within as many turns as it
has bytes left, and the turns after that change nothing. -/
theorem runs_recvBuf_delivers {target : Memory} {payload tail : List Byte} {as : List Answers}
    {s : State} (hinv : Inv s) (hv : s.cfg.valid = true) (hs : BufReady target payload tail s)
    (has : ∀ x ∈ as, 1 ≤ x.read) (hlen : payload.length ≤ as.length)
    (ha : s.agenda = as.map .block) :
    ∃ t, runs as.length s = .next t ∧ BufEnded target tail t := by
  induction as generalizing s payload with
  | nil =>
    have hzero : s.remaining.toNat = 0 := hs.left ▸ Nat.le_zero.1 hlen
    exact absurd (BitVec.eq_of_toNat_eq hzero) (hinv.bytesLeft (.inl hs.phase))
  | cons a as ih =>
    have hi : s.phase ≠ .idle := by simp [hs.phase]
    obtain ⟨u, hu⟩ : ∃ u, u = recvBufIterate { s with agenda := as.map .block, answers := a } :=
      ⟨_, rfl⟩
    have hstep : step s = .next u := by
      rw [step_iteration hv ha (hinv.busyPhase.2 hi) hi hs.waiting]
      simp [iteration, hs.phase, hu]
    have hframe : Frame { s with agenda := as.map .block, answers := a } u :=
      hu ▸ recvBufIterate_frame _
    have hcfg : u.cfg = s.cfg := hframe.cfg
    have hvu : u.cfg.valid = true := hcfg ▸ hv
    have hnext := recvBufIterate_delivers (s := { s with agenda := as.map .block, answers := a })
      { hinv with } { hs with } (has a List.mem_cons_self)
    rw [← hu] at hnext
    rw [List.length_cons, runs_succ as.length hstep]
    rcases hnext with hend | ⟨later, hshorter, hready⟩
    · obtain ⟨x, hx⟩ := runs_block_idle as hvu hend.busy hframe.agenda
      exact ⟨_, hx, { hend with }⟩
    · exact ih (stepKeepsInv s u hinv hstep).1 hvu hready
        (fun x hx => has x (List.mem_cons_of_mem a hx))
        (Nat.le_of_lt_succ (hshorter.trans_le hlen)) hframe.agenda

/-- Settles O56: the run of its turns ends with the payload written from `OFFSET`, which the counters
say is as far as `TOTAL`. -/
theorem recvBufDeliversThePayload : Obligations.RecvBufDeliversThePayload := by
  intro s payload tail as hinv hv hp hw hc hleft hrx has hlen ha
  obtain ⟨t, ht, hend⟩ := runs_recvBuf_delivers hinv hv ⟨hp, hw, hc, hleft, hrx, rfl⟩ has
    (hleft ▸ hlen) ha
  have hsum : s.offset.toNat + payload.length = s.total.toNat :=
    hleft ▸ hinv.counters (by simp [hp, isBulk])
  refine ⟨t, ht, hend.busy, hend.status, hend.cause, hend.offset, hend.rx, fun i => ?_⟩
  rw [hend.buf, Memory.read_writeBytes, hsum]

end Sys2Proof.Machine
end

section
/-! PROOFS. The families of 42_bulk_receive.md and 43_bulk_send.md: a bulk transfer of no byte (R182,
R189, R226, R270), and what a fetch and a write of SEND do (R222 to R225, R227 to R229). -/

namespace Sys2Proof.Machine

/-! ## A transfer of no byte (R226, R270) -/

/-- R270: at the deadline a transfer of no byte ends the operation. -/
theorem zeroTransfer_of_late {poll : Nat} {expired : State → State} {s : State}
    (hd : s.deadline ≤ s.now) : zeroTransfer poll expired s = expired s :=
  if_pos hd

/-- R270: before the deadline a transfer of no byte starts a poll wait. -/
theorem zeroTransfer_of_early {poll : Nat} {expired : State → State} {s : State}
    (hd : s.now < s.deadline) : zeroTransfer poll expired s = startWait poll .poll s :=
  if_neg (Nat.not_le.2 hd)

theorem recvBufIterate_of_no_read {s : State} (hc : s.cancel = false)
    (hr : (transportRead (bufAsk s) s).1 = []) :
    recvBufIterate s = zeroTransfer s.cfg.pPollBulk bulkExpired s := by
  simp [recvBufIterate, hc, hr, transportRead_nil hr]

theorem recvSinkIterate_of_no_read {s : State} (hc : s.cancel = false)
    (hr : (transportRead (sinkAsk s) s).1 = []) :
    recvSinkIterate s = zeroTransfer s.cfg.pPollBulk bulkExpired s := by
  simp [recvSinkIterate, hc, hr, transportRead_nil hr]

/-- R226: a write of the rest of the chunk that the transport takes no byte of. -/
theorem sendWriteIterate_of_no_accept {s : State} {chunk : List Byte} (hc : s.cancel = false)
    (hread : s.txc.readBytes s.txcPos.toNat (writeAsk s) = .ok chunk)
    (hnone : (transportWrite chunk s).1 = 0) :
    sendWriteIterate s = .next (zeroTransfer s.cfg.pPollBulk bulkExpired s) := by
  simp [sendWriteIterate, hc, hread, hnone, transportWrite_zero hnone]

/-- A read succeeds where every byte has its written-mark. -/
theorem Memory.exists_readBytes_eq_ok {m : Memory} {a n : Nat}
    (h : ∀ j, a ≤ j → j < a + n → (m.read j).isSome = true) : ∃ bs, m.readBytes a n = .ok bs := by
  cases hread : m.readBytes a n with
  | ok bs => exact ⟨bs, rfl⟩
  | error i =>
    obtain ⟨hle, hlt, hnone, _⟩ := Memory.readBytes_error hread
    simpa [hnone] using h i hle hlt

/-- Settles O33: the iteration of each of the three phases is a transfer of no byte, which evaluates
the deadline. -/
theorem bulkZeroTransfer : Obligations.BulkZeroTransfer := by
  intro i s hb hw hc hrun
  have hzero : exec i s = .next (zeroTransfer s.cfg.pPollBulk bulkExpired s) := by
    rcases hrun with ⟨hp, ⟨cap, n, rfl⟩, hr⟩ | ⟨hp, ⟨n, rfl⟩, hr⟩ | ⟨hp, ⟨n, rfl⟩, hwrite, hchunk⟩
    · rw [exec_recvBuf_iterates cap n hb hp hw, recvBufIterate_of_no_read hc hr]
    · rw [exec_recvSink_iterates n hb hp hw, recvSinkIterate_of_no_read hc hr]
    · obtain ⟨chunk, hread⟩ : ∃ chunk, s.txc.readBytes s.txcPos.toNat (writeAsk s) = .ok chunk :=
        Memory.exists_readBytes_eq_ok fun j hle hlt =>
          hchunk j hle (by unfold writeAsk at hlt; omega)
      have hnone : (transportWrite chunk s).1 = 0 :=
        Nat.le_zero.1 (hwrite ▸ (transportWrite_spec chunk s).2.1)
      rw [exec_send_writes n hb hp hw, sendWriteIterate_of_no_accept hc hread hnone]
  rw [hzero]
  refine ⟨fun hlate => ?expired, fun hearly => ?poll⟩
  case expired =>
    rw [zeroTransfer_of_late hlate]
    rfl
  case poll =>
    rw [zeroTransfer_of_early hearly]
    rfl

/-! ## A fetch of SEND (R222, R223, R228) -/

/-- R222, R228: a fetch looks at completion before anything else. -/
theorem sendFetchIterate_done {s : State} (hzero : s.remaining = 0) :
    sendFetchIterate s = finish .ok .none s :=
  if_pos hzero

/-- R222, R223: the bytes `d` the source gives are a whole chunk, which is held for writing, or end
SEND. -/
theorem sendFetchIterate_of_read {s : State} {d : List Byte} (hleft : s.remaining ≠ 0)
    (hc : s.cancel = false)
    (hd : d = (s.source.drop s.sourcePos).take (min (fetchAsk s) s.answers.source)) :
    sendFetchIterate s = if d.length < fetchAsk s
      then finish .shortSource .none { s with sourcePos := s.sourcePos + d.length }
      else { s with
        sourcePos := s.sourcePos + d.length, txc := Memory.ofBytes d,
        txcLen := BitVec.ofNat 32 (fetchAsk s), txcPos := 0, phase := .sendWrite } := by
  have hread : sourceRead (fetchAsk s) s = (d, { s with sourcePos := s.sourcePos + d.length }) := by
    rw [hd]
    rfl
  rw [sendFetchIterate, if_neg hleft, if_neg (by simp [hc]), hread]

/-- Settles O36: whether bytes are left decides, and then whether the source gives the whole
chunk. -/
theorem sendFetchesAChunk : Obligations.SendFetchesAChunk := by
  intro n s k d hb hp hw hk hd
  obtain rfl : k = fetchAsk s := hk
  rw [exec_send_fetches n hb hp hw]
  refine ⟨fun hzero => ?done, fun hleft hc hshort => ?short,
    fun hleft hc hall => ⟨Memory.ofBytes d, fun a _ => Memory.read_ofBytes d a, ?fetched⟩⟩
  case done =>
    rw [sendFetchIterate_done hzero]
    rfl
  case short =>
    rw [sendFetchIterate_of_read hleft hc hd, if_pos hshort]
    rfl
  case fetched => rw [sendFetchIterate_of_read hleft hc hd, if_neg hall.not_lt, hall]

/-! ## An accepted write of SEND (R224, R225, R227, R229) -/

/-- The state once a write has transmitted `bs` (R71). -/
def transmitted (bs : List Byte) (s : State) : State := { s with tx := s.tx ++ bs }

/-- R71: a write transmits the bytes the transport accepts. -/
theorem transportWrite_eq {chunk : List Byte} {m : Nat} {s : State}
    (hm : m = min chunk.length s.answers.write) :
    transportWrite chunk s = (m, transmitted (chunk.take m) s) := by
  rw [hm]
  rfl

/-- R224: a write of the rest of the chunk that the transport accepts `m > 0` bytes of. -/
theorem sendWriteIterate_of_accept {s : State} {chunk : List Byte} {m : Nat} (hc : s.cancel = false)
    (hread : s.txc.readBytes s.txcPos.toNat (writeAsk s) = .ok chunk)
    (hm : m = min chunk.length s.answers.write) (hpos : 0 < m) :
    sendWriteIterate s = .next (sendAccepted m (transmitted (chunk.take m) s)) := by
  simp [sendWriteIterate, hc, hread, transportWrite_eq hm, hpos]

/-- R224: what `m` accepted bytes write, in the words of the rule. -/
theorem sendMoved_eq {m : Nat} {s : State} (hm : m ≤ s.remaining.toNat) :
    sendMoved m s = { s with
      txcPos := s.txcPos + BitVec.ofNat 32 m, offset := s.offset + BitVec.ofNat 32 m,
      remaining := s.remaining - BitVec.ofNat 32 m, deadline := s.now + s.cfg.tTimeout } := by
  rw [← countUp_eq_add, ← countUp_eq_add, ← countDown_eq_sub hm]
  rfl

/-- R225, R227: `TXC_POS` reaches `TXC_LEN` with the last byte of the chunk. -/
theorem countUp_eq_iff {pos len : U32} {m : Nat} (hpos : 0 < m) (hm : m ≤ len.toNat - pos.toNat) :
    countUp pos m = len ↔ m = len.toNat - pos.toNat := by
  have hmoved : (countUp pos m).toNat = pos.toNat + m :=
    countUp_toNat (by have := len.isLt; omega)
  rw [← BitVec.toNat_inj, hmoved]
  omega

/-- R225: after part of a chunk SEND writes on, with no wait. -/
theorem sendAccepted_of_part {m : Nat} {s : State} (hmore : countUp s.txcPos m ≠ s.txcLen) :
    sendAccepted m s = sendMoved m s :=
  if_neg hmore

/-- R227, R229: the end of a chunk is reported and starts the throttle wait. -/
theorem sendAccepted_of_last {m : Nat} {s : State} (hlast : countUp s.txcPos m = s.txcLen) :
    sendAccepted m s = startWait s.cfg.dThrottle .throttle
      { emitProgress (sendMoved m s) with phase := .sendFetch } :=
  if_pos hlast

/-- Settles O37: whether the accepted bytes end the chunk decides. -/
theorem sendWritesTheChunk : Obligations.SendWritesTheChunk := by
  intro n s chunk m hb hp hw hc hlen hchunk hm hpos hleft
  have hask : chunk.length = writeAsk s := hlen
  have hread : s.txc.readBytes s.txcPos.toNat (writeAsk s) = .ok chunk :=
    Memory.readBytes_of_written hask (hask ▸ hchunk)
  have hend : countUp s.txcPos m = s.txcLen ↔ m = chunk.length := by
    rw [hlen]
    exact countUp_eq_iff hpos (by omega)
  have hmoved := sendMoved_eq (s := transmitted (chunk.take m) s) hleft
  rw [exec_send_writes n hb hp hw, sendWriteIterate_of_accept hc hread hm hpos]
  refine ⟨fun hpart => ?part, fun hall => ?last⟩
  case part =>
    have hmore : countUp s.txcPos m ≠ s.txcLen := fun hlast => hpart.ne (hend.1 hlast)
    rw [sendAccepted_of_part (s := transmitted (chunk.take m) s) hmore, hmoved]
    rfl
  case last =>
    have hlast : countUp s.txcPos m = s.txcLen := hend.2 hall
    have hsum : (transmitted chunk s).txcPos + BitVec.ofNat 32 m = s.txcLen :=
      (countUp_eq_add _ _).symm.trans hlast
    have htake : chunk.take m = chunk := List.take_of_length_le hall.ge
    rw [sendAccepted_of_last (s := transmitted (chunk.take m) s) hlast, hmoved, htake, hsum]
    rfl

end Sys2Proof.Machine
end

section
/-! PROOFS. The family of 60_exceptions.md, first part: the starts that run nothing (R258, R265, R279),
that DONE and `BUSY` agree (R262, R267), and the end by `CANCEL` (R266, R304). -/

namespace Sys2Proof.Machine

/-! ## Starts of a running block (R265, R279) -/

theorem startStep_busy {s : State} (hb : s.busy = true) :
    startStep s = .fault (.hostProtocol s.desc) :=
  if_pos hb

/-- Settles O12: a start request looks at `BUSY` before it decodes the descriptor. -/
theorem startWhileBusyFaults : Obligations.StartWhileBusyFaults := by
  intro s rest hv ha hb
  exact (step_start hv ha).trans (startStep_busy (s := { s with agenda := rest }) hb)

/-- Settles O16: outside the phases of its own, an operation's step is the fault. -/
theorem operationsNeverOverlap : Obligations.OperationsNeverOverlap := by
  intro s hb
  refine ⟨fun hp c => ?request, fun hp => ?recvLen, fun hp c n => ?recvBuf, fun hp n => ?recvSink,
    fun hfetch hwrite n => ?send⟩
  case request => exact (exec_request c s).trans (operationStep_other hb (by simpa using hp))
  case recvLen => exact (exec_recvLen s).trans (operationStep_other hb (by simpa using hp))
  case recvBuf => exact (exec_recvBuf c n s).trans (operationStep_other hb (by simpa using hp))
  case recvSink => exact (exec_recvSink n s).trans (operationStep_other hb (by simpa using hp))
  case send => exact (exec_send n s).trans (operationStep_other hb (by simp [hfetch, hwrite]))

/-! ## Starts of an invalid descriptor (R103, R258) -/

theorem startStep_undecoded {s : State} {e : DecodeError} (hb : s.busy = false)
    (hd : decodeDesc s.desc = .error e) :
    startStep s = .next (illegalOp (descOp s.desc) s) := by
  simp [startStep, hb, fetchStart, decode, hd]

/-- R103: where a row matches, the bits it masks outside the match value are 0. -/
theorem and_eq_zero_of_row {d mask value mustBeZero : Desc} (hrow : d &&& mask = value)
    (hmask : mask &&& mustBeZero = mustBeZero) (hvalue : value &&& mustBeZero = 0) :
    d &&& mustBeZero = 0 := by
  rw [← hmask, ← BitVec.and_assoc, hrow, hvalue]

/-- R102, R103: a descriptor that decodes has the code of its operation and 0 in the bits the
operation does not use. -/
theorem decodeDesc_mustBeZero {d : Desc} {i : Instr} (h : decodeDesc d = .ok i) :
    (descOp d = 1 ∧ d &&& 0xFFFFFFFFFFFF00F8 = 0)
      ∨ (descOp d = 2 ∧ d &&& 0xFFFFFFFFFFFFFFF8 = 0)
      ∨ (descOp d = 3 ∧ d &&& 0x000000000000FFF8 = 0
        ∧ i = .recvBuf (descCapacity d) (descLength d))
      ∨ (descOp d = 4 ∧ d &&& 0x00000000FFFFFFF8 = 0)
      ∨ (descOp d = 5 ∧ d &&& 0x00000000FFFFFFF8 = 0) := by
  rcases decodeDesc_cases h with ⟨hrow, _⟩ | ⟨hrow, _⟩ | ⟨hrow, hi⟩ | ⟨hrow, _⟩ | ⟨hrow, _⟩
  · exact .inl ⟨congrArg Prod.fst (requestRow_iff.1 hrow), and_eq_zero_of_row hrow rfl rfl⟩
  · exact .inr (.inl ⟨congrArg Prod.fst (recvLenRow_iff.1 hrow), and_eq_zero_of_row hrow rfl rfl⟩)
  · exact .inr (.inr (.inl
      ⟨congrArg Prod.fst (recvBufRow_iff.1 hrow), and_eq_zero_of_row hrow rfl rfl, hi⟩))
  · exact .inr (.inr (.inr (.inl
      ⟨congrArg Prod.fst (recvSinkRow_iff.1 hrow), and_eq_zero_of_row hrow rfl rfl⟩)))
  · exact .inr (.inr (.inr (.inr
      ⟨congrArg Prod.fst (sendRow_iff.1 hrow), and_eq_zero_of_row hrow rfl rfl⟩)))

/-- R258: the descriptors whose start runs nothing, in a configuration. -/
def invalidDesc (cfg : Config) (d : Desc) : Prop :=
  descOp d = 0 ∨ descOp d = 6 ∨ descOp d = 7
    ∨ (descOp d = 1 ∧ d &&& 0xFFFFFFFFFFFF00F8 ≠ 0)
    ∨ (descOp d = 2 ∧ d &&& 0xFFFFFFFFFFFFFFF8 ≠ 0)
    ∨ (descOp d = 3 ∧ d &&& 0x000000000000FFF8 ≠ 0)
    ∨ (descOp d = 4 ∧ d &&& 0x00000000FFFFFFF8 ≠ 0)
    ∨ (descOp d = 5 ∧ d &&& 0x00000000FFFFFFF8 ≠ 0)
    ∨ (descOp d = 3 ∧ cfg.bufSize < (descCapacity d).toNat)

/-- R103: an invalid descriptor that decodes is a RECV_BUF with a capacity above the buffer. -/
theorem invalidDesc_decoded {cfg : Config} {d : Desc} {i : Instr} (hinvalid : invalidDesc cfg d)
    (h : decodeDesc d = .ok i) :
    descOp d = 3 ∧ cfg.bufSize < (descCapacity d).toNat
      ∧ i = .recvBuf (descCapacity d) (descLength d) := by
  unfold invalidDesc at hinvalid
  rcases decodeDesc_mustBeZero h with ⟨hop, hz⟩ | ⟨hop, hz⟩ | ⟨hop, hz, hi⟩ | ⟨hop, hz⟩ | ⟨hop, hz⟩
  case inr.inr.inl =>
    have hsize : ¬ d &&& 0x000000000000FFF8 = 0 ∨ cfg.bufSize < (descCapacity d).toNat := by
      simpa [hop] using hinvalid
    exact ⟨hop, hsize.resolve_left (not_not_intro hz), hi⟩
  all_goals exact absurd hz (by simpa [hop] using hinvalid)

/-- R258: whether the decoder or the bound of RECV_BUF refuses it, an invalid descriptor ends its
start in the same way. -/
theorem startStep_invalid {s : State} (hb : s.busy = false) (hinvalid : invalidDesc s.cfg s.desc) :
    startStep s = .next (illegalOp (descOp s.desc) s) := by
  cases hd : decodeDesc s.desc with
  | error e => exact startStep_undecoded hb hd
  | ok i =>
    obtain ⟨hop, hsize, rfl⟩ := invalidDesc_decoded hinvalid hd
    rw [startStep_decoded hb hd, exec_recvBuf_starts _ _ hb, recvBufStart_illegal _ hsize, hop]

/-- Settles O13: the start writes the operation code and finishes. -/
theorem invalidDescriptorEndsIllegal : Obligations.InvalidDescriptorEndsIllegal := by
  intro s rest hv ha hb hinvalid
  rw [step_start hv ha, startStep_invalid (s := { s with agenda := rest }) hb hinvalid]
  rfl

/-! ## DONE and BUSY (R262, R267) -/

/-- How many DONE events the block has emitted. -/
def doneCount (s : State) : Nat := s.events.count .done

/-- From `s` to `t` the block emits DONE once if `t` is idle, and not at all if it is busy. -/
def DoneIfIdle (s t : State) : Prop := doneCount t = doneCount s + (if t.busy then 0 else 1)

/-- R262: `finish` emits DONE once; what led to it had emitted none. -/
theorem doneIfIdle_finish {code : Status} {cause : Cause} {s u : State}
    (h : doneCount u = doneCount s) : DoneIfIdle s (finish code cause u) := by
  simp only [doneCount] at h
  simp [DoneIfIdle, doneCount, h]

theorem doneIfIdle_running {s t : State} (hb : t.busy = true) (h : doneCount t = doneCount s) :
    DoneIfIdle s t := by
  simp [DoneIfIdle, hb, h]

/-- R187: PROGRESS is no DONE. -/
theorem emitProgress_doneCount (s : State) : doneCount (emitProgress s) = doneCount s := by
  simp [doneCount]

theorem bufMoved_doneCount (bs : List Byte) (s : State) :
    doneCount (bufMoved bs s) = doneCount s :=
  emitProgress_doneCount _

theorem sendFrame_doneIfIdle (cmd : Byte) (s : State) : DoneIfIdle s (sendFrame cmd s) := by
  simp only [sendFrame]
  split <;> exact doneIfIdle_finish rfl

theorem readLength_doneIfIdle (bs : List Byte) {s : State} (hb : s.busy = true) :
    DoneIfIdle s (readLength bs s) := by
  rcases readLength_cases bs s with ⟨_, e⟩ | ⟨_, e⟩ <;> rw [e]
  · exact doneIfIdle_finish rfl
  · exact doneIfIdle_running hb rfl

theorem receive_doneIfIdle (b : Byte) (bs : List Byte) {s : State} (hb : s.busy = true) :
    DoneIfIdle s (receive b bs s) := by
  rcases receive_cases b bs s with e | ⟨_, _, e⟩ | ⟨_, _, e⟩ | ⟨_, _, e⟩ | ⟨_, _, e⟩ | ⟨_, e⟩ <;>
    rw [e]
  case inr.inr.inr.inr.inl => exact doneIfIdle_finish rfl
  case inr.inr.inr.inr.inr => exact readLength_doneIfIdle bs hb
  all_goals exact doneIfIdle_running hb rfl

theorem recvLenIterate_doneIfIdle {s : State} (hb : s.busy = true) :
    DoneIfIdle s (recvLenIterate s) := by
  rcases recvLenIterate_cases s with ⟨_, e⟩ | ⟨_, _, _, e⟩ | ⟨_, _, _, e⟩ | ⟨_, b, bs, _, e⟩ <;>
    rw [e]
  · exact doneIfIdle_finish rfl
  · exact doneIfIdle_finish rfl
  · exact doneIfIdle_running hb rfl
  · exact receive_doneIfIdle b (b :: bs) (s := setDeadline (transportRead (rxAsk s) s).2) hb

theorem bufCommit_doneIfIdle (bs : List Byte) {s : State} (hb : s.busy = true) :
    DoneIfIdle s (bufCommit bs s) := by
  rcases bufCommit_cases bs s with ⟨_, e⟩ | ⟨_, e⟩ <;> rw [e]
  · exact doneIfIdle_finish (bufMoved_doneCount bs s)
  · exact doneIfIdle_running hb (bufMoved_doneCount bs s)

theorem recvBufIterate_doneIfIdle {s : State} (hb : s.busy = true) :
    DoneIfIdle s (recvBufIterate s) := by
  rcases recvBufIterate_cases s with
    ⟨_, e⟩ | ⟨_, _, _, e⟩ | ⟨_, _, _, e⟩ | ⟨_, _, _, e⟩ | ⟨_, _, _, e⟩ <;> rw [e]
  · exact doneIfIdle_finish rfl
  · exact doneIfIdle_finish rfl
  · exact doneIfIdle_running hb rfl
  · exact doneIfIdle_finish rfl
  · exact bufCommit_doneIfIdle _ (s := (transportRead (bufAsk s) s).2) hb

theorem sinkCommit_doneIfIdle (bs : List Byte) {s : State} (hb : s.busy = true) :
    DoneIfIdle s (sinkCommit bs s) := by
  have hreported : doneCount (emitProgress (sinkMoved bs s)) = doneCount s :=
    emitProgress_doneCount _
  rcases sinkCommit_cases bs s with ⟨_, e⟩ | ⟨_, _, e⟩ | ⟨_, _, e⟩ <;> rw [e]
  · exact doneIfIdle_finish rfl
  · exact doneIfIdle_finish hreported
  · exact doneIfIdle_running hb hreported

theorem recvSinkIterate_doneIfIdle {s : State} (hb : s.busy = true) :
    DoneIfIdle s (recvSinkIterate s) := by
  rcases recvSinkIterate_cases s with ⟨_, e⟩ | ⟨_, _, _, e⟩ | ⟨_, _, _, e⟩ | ⟨_, _, e⟩ <;> rw [e]
  · exact doneIfIdle_finish rfl
  · exact doneIfIdle_finish rfl
  · exact doneIfIdle_running hb rfl
  · exact sinkCommit_doneIfIdle _ (s := (transportRead (sinkAsk s) s).2) hb

theorem sendFetchIterate_doneIfIdle {s : State} (hb : s.busy = true) :
    DoneIfIdle s (sendFetchIterate s) := by
  rcases sendFetchIterate_cases s with ⟨_, e⟩ | ⟨_, _, e⟩ | ⟨_, _, _, e⟩ | ⟨_, _, _, e⟩ <;> rw [e]
  case inr.inr.inr => exact doneIfIdle_running hb rfl
  all_goals exact doneIfIdle_finish rfl

theorem sendAccepted_doneIfIdle (m : Nat) {s : State} (hb : s.busy = true) :
    DoneIfIdle s (sendAccepted m s) := by
  rcases sendAccepted_cases m s with ⟨_, e⟩ | ⟨_, e⟩ <;> rw [e]
  · exact doneIfIdle_running hb (emitProgress_doneCount (sendMoved m s))
  · exact doneIfIdle_running hb rfl

theorem sendWriteIterate_doneIfIdle {s t : State} (hb : s.busy = true)
    (ht : sendWriteIterate s = .next t) : DoneIfIdle s t := by
  rcases sendWriteIterate_cases s with ⟨_, e⟩ | ⟨_, i, _, e⟩ | ⟨_, chunk, _, _, e⟩
    | ⟨_, chunk, _, _, _, e⟩ | ⟨_, chunk, _, _, _, e⟩ <;> rw [e] at ht <;> cases ht
  · exact doneIfIdle_finish rfl
  · exact sendAccepted_doneIfIdle _ (s := (transportWrite chunk s).2) hb
  · exact doneIfIdle_finish rfl
  · exact doneIfIdle_running hb rfl

theorem endWait_doneIfIdle {s : State} (hb : s.busy = true) : DoneIfIdle s (endWait s) :=
  doneIfIdle_running ((endWait_busy s).trans hb) (by simp [doneCount])

/-- R262, R267: every turn of a running block emits DONE exactly when it ends the operation. -/
theorem BlockTurn.doneIfIdle {s t : State} (hb : s.busy = true) (h : BlockTurn s t) :
    DoneIfIdle s t := by
  cases h with
  | idle => exact doneIfIdle_running hb rfl
  | wait => exact endWait_doneIfIdle hb
  | request => exact sendFrame_doneIfIdle _ s
  | recvLen => exact recvLenIterate_doneIfIdle hb
  | recvBuf => exact recvBufIterate_doneIfIdle hb
  | recvSink => exact recvSinkIterate_doneIfIdle hb
  | fetch => exact sendFetchIterate_doneIfIdle hb
  | write _ _ _ ht => exact sendWriteIterate_doneIfIdle hb ht

/-- Settles O47, turn by turn. -/
theorem doneExactlyWhenBusyFalls : Obligations.DoneExactlyWhenBusyFalls := by
  intro s t a rest ha hb h
  exact (step_block_next ha h).2.doneIfIdle (s := { s with agenda := rest, answers := a }) hb

/-! ## The end by CANCEL (R266, R304) -/

/-- R266: what an iterating operation ends with when it samples `CANCEL = 1`. A SEND with nothing left
to fetch has completed. -/
def cancelResult (s : State) : Status × Cause :=
  if s.phase = .rxRun then (.cancelled, .cancel)
  else if s.phase = .sendFetch ∧ s.remaining = 0 then (.ok, .none)
  else (.shortTransfer, .cancel)

theorem cancelResult_rxRun {s : State} (hp : s.phase = .rxRun) :
    cancelResult s = (.cancelled, .cancel) :=
  if_pos hp

theorem cancelResult_done {s : State} (hp : s.phase = .sendFetch) (hzero : s.remaining = 0) :
    cancelResult s = (.ok, .none) :=
  (if_neg (by simp [hp])).trans (if_pos ⟨hp, hzero⟩)

theorem cancelResult_bulk {s : State} (hp : s.phase ≠ .rxRun)
    (hleft : s.phase ≠ .sendFetch ∨ s.remaining ≠ 0) :
    cancelResult s = (.shortTransfer, .cancel) :=
  (if_neg hp).trans (if_neg (not_and_or.2 hleft))

/-- R152, R182, R189, R222, R224: the iteration that samples `CANCEL = 1` only finishes, and may move
`RXSM`. -/
theorem iteration_cancelled {s : State} (hi : isIterating s.phase = true) (hc : s.cancel = true) :
    ∃ x, iteration s
      = .next (finish (cancelResult s).1 (cancelResult s).2 { s with rxsm := x }) := by
  by_cases hrx : s.phase = .rxRun
  · refine ⟨.cancelled, ?_⟩
    rw [cancelResult_rxRun hrx, ← recvLenIterate_cancelled hc]
    simp only [iteration, hrx]
  · refine ⟨s.rxsm, ?_⟩
    by_cases hdone : s.phase = .sendFetch ∧ s.remaining = 0
    · obtain ⟨hp, hzero⟩ := hdone
      rw [cancelResult_done hp hzero]
      change iteration s = .next (finish .ok .none s)
      simp only [iteration, hp, sendFetchIterate_done hzero]
    · rw [cancelResult_bulk hrx (not_and_or.1 hdone)]
      change iteration s = .next (bulkCancelled s)
      unfold iteration
      cases hp : s.phase with
      | idle => simp [hp, isIterating] at hi
      | reqSend => simp [hp, isIterating] at hi
      | rxRun => exact absurd hp hrx
      | bufRun => exact congrArg _ (recvBufIterate_cancelled hc)
      | sinkRun => exact congrArg _ (recvSinkIterate_cancelled hc)
      | sendFetch => exact congrArg _ (sendFetchIterate_cancelled (fun h => hdone ⟨hp, h⟩) hc)
      | sendWrite => exact sendWriteIterate_cancelled hc

/-- Settles O60: the turn is the iteration, which finishes and leaves the rest of the state alone. -/
theorem cancellationEndsTheOperation : Obligations.CancellationEndsTheOperation := by
  intro s a rest hv ha hb hi hw hc
  have hidle : s.phase ≠ .idle := fun hp => by simp [hp, isIterating] at hi
  obtain ⟨x, hx⟩ := iteration_cancelled (s := { s with agenda := rest, answers := a }) hi hc
  exact ⟨_, (step_iteration hv ha hb hidle hw).trans hx, rfl,
    fun hp => Prod.ext_iff.1 (cancelResult_rxRun hp),
    fun hp hleft => Prod.ext_iff.1 (cancelResult_bulk hp hleft),
    fun hp hzero => Prod.ext_iff.1 (cancelResult_done hp hzero),
    rfl, rfl, rfl, rfl, rfl, rfl, rfl, rfl⟩

end Sys2Proof.Machine
end

section
/-! PROOFS. The family of 60_exceptions.md, second part: an operation over a stalled transport ends
with its deadline result within one poll interval of the deadline (R271, R303). -/

namespace Sys2Proof.Machine

/-! ## An iteration that moves no byte (R270, R271) -/

/-- The wait of the running operation after a transfer of no byte (R160, R182, R189, R226). -/
def pollInterval (s : State) : Nat := if s.phase = .rxRun then s.cfg.pPollRx else s.cfg.pPollBulk

/-- The deadline result of the running operation (R159, R250). -/
def deadlineEnd (s : State) : State :=
  if s.phase = .rxRun then recvLenExpired s else bulkExpired s

/-- A running operation that asks the transport for bytes in its next turn. -/
structure Asking (s : State) : Prop where
  busy : s.busy = true
  phase : s.phase = .rxRun ∨ s.phase = .bufRun ∨ s.phase = .sinkRun ∨ s.phase = .sendWrite
  waiting : s.waiting = false
  cancel : s.cancel = false
  chunk : s.phase = .sendWrite → ∃ chunk, s.txc.readBytes s.txcPos.toNat (writeAsk s) = .ok chunk

theorem Asking.not_idle {s : State} (h : Asking s) : s.phase ≠ .idle := by
  rcases h.phase with hp | hp | hp | hp <;> simp [hp]

theorem transportRead_stalled {s : State} (k : Nat) (h : s.answers = stalled) :
    (transportRead k s).1 = [] := by
  simp [transportRead, h, stalled]

theorem transportWrite_stalled {s : State} (chunk : List Byte) (h : s.answers = stalled) :
    (transportWrite chunk s).1 = 0 := by
  simp [transportWrite, h, stalled]

/-- R159, R160: an iteration of RECV_LEN that reads no byte evaluates the deadline. -/
theorem recvLenIterate_eq_zeroTransfer {s : State} (hc : s.cancel = false)
    (hr : (transportRead (rxAsk s) s).1 = []) :
    recvLenIterate s = zeroTransfer s.cfg.pPollRx recvLenExpired s := by
  simp [recvLenIterate, hc, hr, transportRead_nil hr]

/-- R270: over a stalled transport the iteration only evaluates the deadline. -/
theorem iteration_stalled {s : State} (h : Asking s) (hs : s.answers = stalled) :
    iteration s = .next (zeroTransfer (pollInterval s) deadlineEnd s) := by
  rcases h.phase with hp | hp | hp | hp
  · simp [iteration, pollInterval, deadlineEnd, hp, zeroTransfer,
      recvLenIterate_eq_zeroTransfer h.cancel (transportRead_stalled _ hs)]
  · simp [iteration, pollInterval, deadlineEnd, hp, zeroTransfer,
      recvBufIterate_of_no_read h.cancel (transportRead_stalled _ hs)]
  · simp [iteration, pollInterval, deadlineEnd, hp, zeroTransfer,
      recvSinkIterate_of_no_read h.cancel (transportRead_stalled _ hs)]
  · obtain ⟨chunk, hread⟩ := h.chunk hp
    simp [iteration, pollInterval, deadlineEnd, hp, zeroTransfer,
      sendWriteIterate_of_no_accept h.cancel hread (transportWrite_stalled chunk hs)]

/-- A block turn over a stalled transport. -/
theorem step_stalled {s : State} {rest : List Move} (hv : s.cfg.valid = true) (h : Asking s)
    (ha : s.agenda = .block stalled :: rest) :
    step s = .next (zeroTransfer (pollInterval s) deadlineEnd
      { s with agenda := rest, answers := stalled }) := by
  rw [step_iteration hv ha h.busy h.not_idle h.waiting]
  exact iteration_stalled { h with } rfl

/-! ## Ideal time over a stall (R303) -/

theorem step_tick {s : State} {n : Nat} {rest : List Move} (hv : s.cfg.valid = true)
    (ha : s.agenda = .tick n :: rest) :
    step s = .next { s with agenda := rest, now := s.now + n } := by
  simp only [step, hv, ha, if_true, move]

/-- R29: a turn at `WAKE` or later ends the wait. -/
theorem step_wakes {s : State} {a : Answers} {rest : List Move} (hv : s.cfg.valid = true)
    (ha : s.agenda = .block a :: rest) (hb : s.busy = true) (hi : isIterating s.phase = true)
    (hw : s.waiting = true) (hwake : s.wake ≤ s.now) :
    step s = .next { s with agenda := rest, answers := a, waiting := false } := by
  rw [waitEndsAtWake s a rest hv ha hb hi hw, decide_eq_false (Nat.not_lt.2 hwake)]

/-- `s` in the wait of a stalled turn, with `moves` to come. -/
def stalledWait (poll : Nat) (moves : List Move) (s : State) : State :=
  startWait poll .poll { s with agenda := moves, answers := stalled }

/-- `s` once that wait has ended. -/
def polled (poll : Nat) (moves : List Move) (s : State) : State :=
  { stalledWait poll moves s with now := s.now + poll, waiting := false }

/-- R303: before the deadline a stalled turn, the poll interval and the end of the wait take three
moves and lead to the next stalled turn. -/
theorem runs_polled {s : State} {rest : List Move} (k : Nat) (hv : s.cfg.valid = true)
    (h : Asking s) (hearly : s.now < s.deadline)
    (ha : s.agenda = .block stalled :: .tick (pollInterval s) :: .block stalled :: rest) :
    runs (k + 3) s = runs k (polled (pollInterval s) rest s) := by
  have hiter : isIterating s.phase = true := by
    rcases h.phase with hp | hp | hp | hp <;> simp [hp, isIterating]
  have hwait : step s = .next (stalledWait (pollInterval s)
      (.tick (pollInterval s) :: .block stalled :: rest) s) :=
    (step_stalled hv h ha).trans (congrArg Host.Outcome.next (zeroTransfer_of_early hearly))
  have htick : step (stalledWait (pollInterval s)
        (.tick (pollInterval s) :: .block stalled :: rest) s)
      = .next { stalledWait (pollInterval s) (.block stalled :: rest) s with
          now := s.now + pollInterval s } :=
    step_tick hv rfl
  have hwake : step { stalledWait (pollInterval s) (.block stalled :: rest) s with
          now := s.now + pollInterval s }
      = .next (polled (pollInterval s) rest s) :=
    step_wakes hv rfl h.busy hiter rfl le_rfl
  rw [runs_succ _ hwait, runs_succ _ htick, runs_succ _ hwake]

/-- What a stall leaves after `elapsed` ticks: the deadline result, and no byte moved. -/
structure StallEnded (elapsed : Nat) (s t : State) : Prop where
  busy : t.busy = false
  cause : t.cause = .deadline
  now : t.now = s.now + elapsed
  rx : t.rx = s.rx
  tx : t.tx = s.tx
  sink : t.sink = s.sink

theorem deadlineEnd_stallEnded (s : State) : StallEnded 0 s (deadlineEnd s) := by
  unfold deadlineEnd
  split <;> exact ⟨rfl, rfl, rfl, rfl, rfl, rfl⟩

/-- R271: an operation that stalls through `n` poll intervals, of which the last one reaches the
deadline, ends with its deadline result. -/
theorem runs_stallMoves (n : Nat) {s : State} (hv : s.cfg.valid = true) (h : Asking s)
    (hearly : ∀ k < n, s.now + k * pollInterval s < s.deadline)
    (hlate : s.deadline ≤ s.now + n * pollInterval s)
    (ha : s.agenda = stallMoves (pollInterval s) n) :
    ∃ t, runs (3 * n + 1) s = .next t ∧ StallEnded (n * pollInterval s) s t := by
  induction n generalizing s with
  | zero =>
    have hend := (step_stalled hv h ha).trans (congrArg Host.Outcome.next
      (zeroTransfer_of_late (expired := deadlineEnd) (by simpa using hlate)))
    refine ⟨_, runs_succ 0 hend, ?_⟩
    rw [Nat.zero_mul]
    exact { deadlineEnd_stallEnded { s with agenda := [], answers := stalled } with }
  | succ n ih =>
    have hround := runs_polled (3 * n + 1) hv h (by simpa using hearly 0 (Nat.succ_pos n)) ha
    have hnext (k : Nat) : s.now + pollInterval s + k * pollInterval s
        = s.now + (k + 1) * pollInterval s := by
      rw [Nat.add_one_mul]
      omega
    obtain ⟨t, ht, hended⟩ :=
      ih (s := polled (pollInterval s) (stallMoves (pollInterval s) n) s) hv
        { h with waiting := rfl }
        (fun k hk => (hnext k).trans_lt (hearly (k + 1) (Nat.succ_lt_succ hk)))
        (hlate.trans_eq (hnext n).symm) rfl
    exact ⟨t, hround.trans ht, { hended with now := hended.now.trans (hnext n) }⟩

/-! ## The deadline between two polls (R303) -/

/-- Fewer poll intervals than `n` do not reach the deadline, `n` of them do, and they do not
pass it by an interval. -/
theorem deadline_between_polls {now deadline poll n : Nat} (hpoll : 0 < poll)
    (hn : n = (deadline - now + poll - 1) / poll) :
    (∀ k < n, now + k * poll < deadline) ∧ deadline ≤ now + n * poll
      ∧ now + n * poll < max now deadline + poll := by
  have hceil (k : Nat) : n ≤ k ↔ deadline - now ≤ k * poll := by
    rw [hn, ← Nat.ceilDiv_eq_add_pred_div, Nat.mul_comm]
    exact ceilDiv_le_iff_le_mul hpoll
  have hearly : ∀ k < n, now + k * poll < deadline := fun k hk => by
    have := mt (hceil k).2 (Nat.not_le.2 hk)
    omega
  refine ⟨hearly, ?_, ?_⟩
  · have := (hceil n).1 le_rfl
    omega
  · cases n with
    | zero => omega
    | succ m =>
      have := hearly m (Nat.lt_succ_self m)
      rw [Nat.add_one_mul]
      omega

theorem pollInterval_pos {s : State} (hv : s.cfg.valid = true) : 0 < pollInterval s := by
  obtain ⟨_, hrx, hbulk, _⟩ := (config_valid_iff s.cfg).1 hv
  unfold pollInterval
  split
  · exact hrx
  · exact hbulk

/-- Under the invariant the chunk a SEND is writing holds every byte it is asked for (R49, R222). -/
theorem Inv.asking {s : State} (h : Inv s)
    (hp : s.phase = .rxRun ∨ s.phase = .bufRun ∨ s.phase = .sinkRun ∨ s.phase = .sendWrite)
    (hw : s.waiting = false) (hc : s.cancel = false) : Asking s where
  busy := h.busyPhase.2 (by rcases hp with hp | hp | hp | hp <;> simp [hp])
  phase := hp
  waiting := hw
  cancel := hc
  chunk hwrite := Memory.exists_readBytes_eq_ok fun j _ hj =>
    h.chunkWritten hwrite j (by
      have := h.chunkBounds.1
      unfold writeAsk at hj
      omega)

/-- Settles O59: the stall lasts the poll intervals that reach the deadline. -/
theorem stallEndsAtTheDeadline : Obligations.StallEndsAtTheDeadline := by
  intro s poll n h hv hp hw hc hpoll hn ha
  obtain rfl : poll = pollInterval s := hpoll
  obtain ⟨hearly, hlate, hwithin⟩ := deadline_between_polls (pollInterval_pos hv) hn
  obtain ⟨t, ht, hended⟩ := runs_stallMoves n hv (h.asking hp hw hc) hearly hlate ha
  exact ⟨t, ht, hended.busy, hended.cause, hlate.trans_eq hended.now.symm,
    hended.now.trans_lt hwithin, hended.rx, hended.tx, hended.sink⟩

end Sys2Proof.Machine
end
